-- ==== Sys2Proof/Word.lean ====
section
/-!
DEFINITION. The words of the host interface and the BitString, with their plainest types.
Rules cited are those of spec/.
-/

namespace Sys2Proof

/-- One byte of the text port (40_bitstring_buffer.md R100). -/
abbrev Byte := BitVec 8

/-- A 32-bit command word `CW` (30_encoding.md R70, R71). -/
abbrev CommandWord := BitVec 32

/-- A 64-bit data word `D`, also the width of `RES`, `FV[i]` and `SCH.DEF[i]` (30_encoding.md R70). -/
abbrev DataWord := BitVec 64

/-- A BitString: a finite sequence of binary digits, position 0 first (00_scope.md R9).
`true` is the digit 1; `[]` is ε. -/
abbrev BitString := List Bool

/-- A BitString register number, the 4-bit fields RD and RS (30_encoding.md R71). -/
abbrev BsReg := BitVec 4

/-- The 16-bit immediate field IMM (30_encoding.md R71). -/
abbrev Imm := BitVec 16

/-- One transaction of the host port: a command word, a data word and the text bytes
(30_encoding.md R70). -/
structure Transaction where
  /-- The command word `CW`. -/
  cw : CommandWord
  /-- The data word `D`. -/
  d : DataWord
  /-- The text bytes `T[0..]` on the text-in port. -/
  text : List Byte
  deriving DecidableEq, Repr

end Sys2Proof
end

