-- ==== Sys2Proof/Config.lean ====
section
/-!
DEFINITION. The parameters of 00_scope.md R7 and the free NaN draw of 41_numeric_codec.md R131.
-/

namespace Sys2Proof

/-- The parameters an instance is built with (00_scope.md R7). They are data, so that a model of
every legal instance is had from one text (assumption log 1). -/
structure Params where
  /-- `CAP_BITS`: the greatest length in bits of any BitString the block holds. -/
  capBits : Nat
  /-- `MAX_FIELDS`: the number of descriptors, defaults and field values. -/
  maxFields : Nat
  deriving DecidableEq, Repr

/-- The constraints 00_scope.md R7 puts on the parameters. -/
abbrev Params.Valid (p : Params) : Prop :=
  64 + 64 * p.maxFields ≤ p.capBits ∧ p.capBits ≤ 2 ^ 32 - 1 ∧ 1 ≤ p.maxFields ∧ p.maxFields ≤ 256

/-- The default parameters of 00_scope.md R7. -/
def Params.default : Params := { capBits := 65536, maxFields := 32 }

/-- `NBS`, the number of BitString registers (00_scope.md R7). -/
abbrev Config.nbs : Nat := 16

/-- The reset value 2^31 of `I32_OFFSET` (10_state.md R35). -/
def Config.i32OffsetReset : BitVec 32 := 0x80000000

/-- The raw NaN draws, a free value: no body, so nothing can be proved of any one draw
(41_numeric_codec.md R131; assumption log 4). Draw `n` is the `n`-th f32 conversion's; the operation
`drawNaN` of Machine/Ops.lean folds it into the set of NaN patterns. -/
opaque Config.nanDraw : Nat → BitVec 32

end Sys2Proof
end

