-- ==== Sys2Proof/Syntax.lean ====
section
/-!
DEFINITION. The commands: one constructor per row of 30_encoding.md R76, holding exactly the
operands the row uses. A data word a row does not use is no operand (30_encoding.md R73).
-/

namespace Sys2Proof

/-- The 44 commands of 30_encoding.md R76. `rd`, `rs` are the register fields; `w`, `i`, `csr` the
immediate in its three readings (30_encoding.md R74); `d`, `n`, `v` the data word; `text` the bytes of the
text-in port, whose count is IMM. -/
inductive Instr where
  | rdreg (csr : Imm)
  | wrreg (csr : Imm) (d : DataWord)
  | clrst
  | bsText (rd : BsReg) (text : List Byte)
  | bsStr (rs : BsReg)
  | isBin (text : List Byte)
  | bsLen (rs : BsReg)
  | fromU16 (rd : BsReg) (d : DataWord)
  | fromU32 (rd : BsReg) (d : DataWord)
  | fromI32 (rd : BsReg) (d : DataWord)
  | fromU64 (rd : BsReg) (d : DataWord)
  | fromF32 (rd : BsReg) (d : DataWord)
  | fromNum (rd : BsReg) (w : Imm) (d : DataWord)
  | asU16 (rs : BsReg)
  | asU32 (rs : BsReg)
  | asI32 (rs : BsReg)
  | asU64 (rs : BsReg)
  | asF32 (rs : BsReg)
  | asNum (rs : BsReg)
  | wU16 (d : DataWord)
  | wU32 (d : DataWord)
  | wI32 (d : DataWord)
  | wU64 (d : DataWord)
  | wF32 (d : DataWord)
  | wNum (w : Imm) (d : DataWord)
  | wBits (rs : BsReg)
  | wFlush (rd : BsReg)
  | rU16
  | rU32
  | rI32
  | rU64
  | rF32
  | rNum (w : Imm)
  | rBits (rd : BsReg) (n : DataWord)
  | rSkip (n : DataWord)
  | rLoad (rs : BsReg)
  | schFd (i : Imm) (d : DataWord)
  | schDef (i : Imm) (d : DataWord)
  | fvWr (i : Imm) (d : DataWord)
  | fvRd (i : Imm)
  | feEnc (rd : BsReg) (v : DataWord)
  | fdHdr
  | fdBody (v : DataWord)
  | fdSkip
  deriving DecidableEq, Repr

end Sys2Proof
end

