-- ==== Sys2Proof/WellFormed.lean ====
section
/-!
DEFINITION. Well-formed commands: those the command word of 30_encoding.md R71 can carry.
-/

namespace Sys2Proof

/-- A text fits one transaction when its length fits the 16-bit IMM field: at most `TEXT_MAX` = 65535
bytes (00_scope.md R7, 30_encoding.md R74). -/
def textFits (text : List Byte) : Bool := decide (text.length ≤ 65535)

/-- A command is well formed when a command word encodes it. Register numbers and immediates fit their
fields by type; an immediate out of its command's range is well formed and raises IllegalOperand when it
executes (30_encoding.md R78). -/
def Instr.wf : Instr → Bool
  | .rdreg _ => true
  | .wrreg _ _ => true
  | .clrst => true
  | .bsText _ text => textFits text
  | .bsStr _ => true
  | .isBin text => textFits text
  | .bsLen _ => true
  | .fromU16 _ _ => true
  | .fromU32 _ _ => true
  | .fromI32 _ _ => true
  | .fromU64 _ _ => true
  | .fromF32 _ _ => true
  | .fromNum _ _ _ => true
  | .asU16 _ => true
  | .asU32 _ => true
  | .asI32 _ => true
  | .asU64 _ => true
  | .asF32 _ => true
  | .asNum _ => true
  | .wU16 _ => true
  | .wU32 _ => true
  | .wI32 _ => true
  | .wU64 _ => true
  | .wF32 _ => true
  | .wNum _ _ => true
  | .wBits _ => true
  | .wFlush _ => true
  | .rU16 => true
  | .rU32 => true
  | .rI32 => true
  | .rU64 => true
  | .rF32 => true
  | .rNum _ => true
  | .rBits _ _ => true
  | .rSkip _ => true
  | .rLoad _ => true
  | .schFd _ _ => true
  | .schDef _ _ => true
  | .fvWr _ _ => true
  | .fvRd _ => true
  | .feEnc _ _ => true
  | .fdHdr => true
  | .fdBody _ => true
  | .fdSkip => true

end Sys2Proof
end

