-- ==== Sys2Proof/Decode.lean ====
section
/-!
DEFINITION. The decoder and the encoder, both written from the table of 30_encoding.md R76, and the
layout of one transaction as bits.
-/

namespace Sys2Proof

/-! ### The fields of the command word (30_encoding.md R71) -/

/-- OP, bits 31:24. -/
def opField (cw : CommandWord) : BitVec 8 := cw.extractLsb' 24 8

/-- RD, bits 23:20. -/
def rdField (cw : CommandWord) : BsReg := cw.extractLsb' 20 4

/-- RS, bits 19:16. -/
def rsField (cw : CommandWord) : BsReg := cw.extractLsb' 16 4

/-- IMM, bits 15:0. -/
def immField (cw : CommandWord) : Imm := cw.extractLsb' 0 16

/-- The command word of four fields: `OP<<24 | RD<<20 | RS<<16 | IMM` (30_encoding.md R80). -/
def assemble (op : BitVec 8) (rd rs : BsReg) (imm : Imm) : CommandWord :=
  op.setWidth 32 <<< 24 ||| rd.setWidth 32 <<< 20 ||| rs.setWidth 32 <<< 16 ||| imm.setWidth 32

/-- How many text bytes a transaction carries: IMM for OP 0x10 and 0x12, legal word or not, else none
(60_exceptions.md R272). -/
def textLen (cw : CommandWord) : Nat :=
  if opField cw = 0x10 ∨ opField cw = 0x12 then (immField cw).toNat else 0

/-! ### Decoding (30_encoding.md R76, R77) -/

/-- Why a transaction is no command. The first two are the illegal words of 30_encoding.md R77; the last
is no transaction of R70 at all, and the port never hands one to the decoder. -/
inductive DecodeError where
  /-- OP is assigned to no command. -/
  | unassignedOpcode (op : BitVec 8)
  /-- OP is assigned and a field the command does not use is not zero (30_encoding.md R72). -/
  | reservedField (op : BitVec 8)
  /-- The text is not of the length the command word announces. -/
  | textLength (announced : Nat)
  deriving DecidableEq, Repr

/-- One row of 30_encoding.md R76: the word selects it exactly when `CW AND mask = match`. -/
def selectRow (cw matchWord mask : CommandWord) (i : Instr) : Except DecodeError Instr :=
  if cw &&& mask = matchWord then .ok i else .error (.reservedField (opField cw))

/-- The command a word with its operands stands for: 30_encoding.md R76, row by row. -/
def decodeWord (cw : CommandWord) (d : DataWord) (text : List Byte) : Except DecodeError Instr :=
  match (opField cw).toNat with
  | 0x01 => selectRow cw 0x01000000 0xFFFF0000 (.rdreg (immField cw))
  | 0x02 => selectRow cw 0x02000000 0xFFFF0000 (.wrreg (immField cw) d)
  | 0x03 => selectRow cw 0x03000000 0xFFFFFFFF .clrst
  | 0x10 => selectRow cw 0x10000000 0xFF0F0000 (.bsText (rdField cw) text)
  | 0x11 => selectRow cw 0x11000000 0xFFF0FFFF (.bsStr (rsField cw))
  | 0x12 => selectRow cw 0x12000000 0xFFFF0000 (.isBin text)
  | 0x13 => selectRow cw 0x13000000 0xFFF0FFFF (.bsLen (rsField cw))
  | 0x20 => selectRow cw 0x20000000 0xFF0FFFFF (.fromU16 (rdField cw) d)
  | 0x21 => selectRow cw 0x21000000 0xFF0FFFFF (.fromU32 (rdField cw) d)
  | 0x22 => selectRow cw 0x22000000 0xFF0FFFFF (.fromI32 (rdField cw) d)
  | 0x23 => selectRow cw 0x23000000 0xFF0FFFFF (.fromU64 (rdField cw) d)
  | 0x24 => selectRow cw 0x24000000 0xFF0FFFFF (.fromF32 (rdField cw) d)
  | 0x25 => selectRow cw 0x25000000 0xFF0F0000 (.fromNum (rdField cw) (immField cw) d)
  | 0x30 => selectRow cw 0x30000000 0xFFF0FFFF (.asU16 (rsField cw))
  | 0x31 => selectRow cw 0x31000000 0xFFF0FFFF (.asU32 (rsField cw))
  | 0x32 => selectRow cw 0x32000000 0xFFF0FFFF (.asI32 (rsField cw))
  | 0x33 => selectRow cw 0x33000000 0xFFF0FFFF (.asU64 (rsField cw))
  | 0x34 => selectRow cw 0x34000000 0xFFF0FFFF (.asF32 (rsField cw))
  | 0x35 => selectRow cw 0x35000000 0xFFF0FFFF (.asNum (rsField cw))
  | 0x40 => selectRow cw 0x40000000 0xFFFFFFFF (.wU16 d)
  | 0x41 => selectRow cw 0x41000000 0xFFFFFFFF (.wU32 d)
  | 0x42 => selectRow cw 0x42000000 0xFFFFFFFF (.wI32 d)
  | 0x43 => selectRow cw 0x43000000 0xFFFFFFFF (.wU64 d)
  | 0x44 => selectRow cw 0x44000000 0xFFFFFFFF (.wF32 d)
  | 0x45 => selectRow cw 0x45000000 0xFFFF0000 (.wNum (immField cw) d)
  | 0x46 => selectRow cw 0x46000000 0xFFF0FFFF (.wBits (rsField cw))
  | 0x47 => selectRow cw 0x47000000 0xFF0FFFFF (.wFlush (rdField cw))
  | 0x50 => selectRow cw 0x50000000 0xFFFFFFFF .rU16
  | 0x51 => selectRow cw 0x51000000 0xFFFFFFFF .rU32
  | 0x52 => selectRow cw 0x52000000 0xFFFFFFFF .rI32
  | 0x53 => selectRow cw 0x53000000 0xFFFFFFFF .rU64
  | 0x54 => selectRow cw 0x54000000 0xFFFFFFFF .rF32
  | 0x55 => selectRow cw 0x55000000 0xFFFF0000 (.rNum (immField cw))
  | 0x56 => selectRow cw 0x56000000 0xFF0FFFFF (.rBits (rdField cw) d)
  | 0x57 => selectRow cw 0x57000000 0xFFFFFFFF (.rSkip d)
  | 0x58 => selectRow cw 0x58000000 0xFFF0FFFF (.rLoad (rsField cw))
  | 0x60 => selectRow cw 0x60000000 0xFFFF0000 (.schFd (immField cw) d)
  | 0x61 => selectRow cw 0x61000000 0xFFFF0000 (.schDef (immField cw) d)
  | 0x62 => selectRow cw 0x62000000 0xFFFF0000 (.fvWr (immField cw) d)
  | 0x63 => selectRow cw 0x63000000 0xFFFF0000 (.fvRd (immField cw))
  | 0x64 => selectRow cw 0x64000000 0xFF0FFFFF (.feEnc (rdField cw) d)
  | 0x65 => selectRow cw 0x65000000 0xFFFFFFFF .fdHdr
  | 0x66 => selectRow cw 0x66000000 0xFFFFFFFF (.fdBody d)
  | 0x67 => selectRow cw 0x67000000 0xFFFFFFFF .fdSkip
  | _ => .error (.unassignedOpcode (opField cw))

/-- Decoding a transaction: total, and rejecting by name. -/
def decode (t : Transaction) : Except DecodeError Instr :=
  if t.text.length = textLen t.cw then decodeWord t.cw t.d t.text
  else .error (.textLength (textLen t.cw))

/-! ### Encoding (30_encoding.md R76, R80) -/

/-- The transaction of a command: reserved fields zero, and a data word of 0 and no text where the
command has none (30_encoding.md R80). -/
def encode : Instr → Transaction
  | .rdreg csr => ⟨assemble 0x01 0 0 csr, 0, []⟩
  | .wrreg csr d => ⟨assemble 0x02 0 0 csr, d, []⟩
  | .clrst => ⟨assemble 0x03 0 0 0, 0, []⟩
  | .bsText rd text => ⟨assemble 0x10 rd 0 (BitVec.ofNat 16 text.length), 0, text⟩
  | .bsStr rs => ⟨assemble 0x11 0 rs 0, 0, []⟩
  | .isBin text => ⟨assemble 0x12 0 0 (BitVec.ofNat 16 text.length), 0, text⟩
  | .bsLen rs => ⟨assemble 0x13 0 rs 0, 0, []⟩
  | .fromU16 rd d => ⟨assemble 0x20 rd 0 0, d, []⟩
  | .fromU32 rd d => ⟨assemble 0x21 rd 0 0, d, []⟩
  | .fromI32 rd d => ⟨assemble 0x22 rd 0 0, d, []⟩
  | .fromU64 rd d => ⟨assemble 0x23 rd 0 0, d, []⟩
  | .fromF32 rd d => ⟨assemble 0x24 rd 0 0, d, []⟩
  | .fromNum rd w d => ⟨assemble 0x25 rd 0 w, d, []⟩
  | .asU16 rs => ⟨assemble 0x30 0 rs 0, 0, []⟩
  | .asU32 rs => ⟨assemble 0x31 0 rs 0, 0, []⟩
  | .asI32 rs => ⟨assemble 0x32 0 rs 0, 0, []⟩
  | .asU64 rs => ⟨assemble 0x33 0 rs 0, 0, []⟩
  | .asF32 rs => ⟨assemble 0x34 0 rs 0, 0, []⟩
  | .asNum rs => ⟨assemble 0x35 0 rs 0, 0, []⟩
  | .wU16 d => ⟨assemble 0x40 0 0 0, d, []⟩
  | .wU32 d => ⟨assemble 0x41 0 0 0, d, []⟩
  | .wI32 d => ⟨assemble 0x42 0 0 0, d, []⟩
  | .wU64 d => ⟨assemble 0x43 0 0 0, d, []⟩
  | .wF32 d => ⟨assemble 0x44 0 0 0, d, []⟩
  | .wNum w d => ⟨assemble 0x45 0 0 w, d, []⟩
  | .wBits rs => ⟨assemble 0x46 0 rs 0, 0, []⟩
  | .wFlush rd => ⟨assemble 0x47 rd 0 0, 0, []⟩
  | .rU16 => ⟨assemble 0x50 0 0 0, 0, []⟩
  | .rU32 => ⟨assemble 0x51 0 0 0, 0, []⟩
  | .rI32 => ⟨assemble 0x52 0 0 0, 0, []⟩
  | .rU64 => ⟨assemble 0x53 0 0 0, 0, []⟩
  | .rF32 => ⟨assemble 0x54 0 0 0, 0, []⟩
  | .rNum w => ⟨assemble 0x55 0 0 w, 0, []⟩
  | .rBits rd n => ⟨assemble 0x56 rd 0 0, n, []⟩
  | .rSkip n => ⟨assemble 0x57 0 0 0, n, []⟩
  | .rLoad rs => ⟨assemble 0x58 0 rs 0, 0, []⟩
  | .schFd i d => ⟨assemble 0x60 0 0 i, d, []⟩
  | .schDef i d => ⟨assemble 0x61 0 0 i, d, []⟩
  | .fvWr i d => ⟨assemble 0x62 0 0 i, d, []⟩
  | .fvRd i => ⟨assemble 0x63 0 0 i, 0, []⟩
  | .feEnc rd v => ⟨assemble 0x64 rd 0 0, v, []⟩
  | .fdHdr => ⟨assemble 0x65 0 0 0, 0, []⟩
  | .fdBody v => ⟨assemble 0x66 0 0 0, v, []⟩
  | .fdSkip => ⟨assemble 0x67 0 0 0, 0, []⟩

/-- The command word of a command, which a fault records in `FAULT_CMD` (10_state.md R37). -/
def commandWord (i : Instr) : CommandWord := (encode i).cw

/-! ### A transaction as one number (assumption log 9) -/

/-- The transaction whose bits are `w`, `nbits` of them given and the rest zero: bits 31:0 the command
word, bits 95:32 the data word, and text byte `j` in the eight bits from `96 + 8 * j`. -/
def tableTransaction (nbits w : Nat) : Transaction :=
  let v := w % 2 ^ nbits
  let cw := BitVec.ofNat 32 v
  { cw := cw
    d := BitVec.ofNat 64 (v >>> 32)
    text := (List.range (textLen cw)).map fun j => BitVec.ofNat 8 (v >>> (96 + 8 * j)) }

/-- The command the decoder reads from the bits of `w`. -/
def decodeTableWord (nbits w : Nat) : Option Instr :=
  match decode (tableTransaction nbits w) with
  | .ok i => some i
  | .error _ => none

end Sys2Proof
end

