-- ==== Sys2Proof/Machine/State.lean ====
section
/-!
DEFINITION. The state of the block (10_state.md), its reset value (R42), and the reasons a step can stop.
-/

namespace Sys2Proof.Machine

/-- The numeric views a field can have (10_state.md R31). -/
inductive Kind where
  | u16 | u32 | i32 | u64 | f32 | num
  deriving DecidableEq, Repr

/-- One entry of the schema, `SCH.FD[i] = (kind, width, ver)` (10_state.md R30, R31). -/
structure Descriptor where
  /-- The numeric view. -/
  kind : Kind
  /-- The width in bits, the 7-bit field of 10_state.md R38. -/
  width : BitVec 7
  /-- The version the field is introduced in. -/
  ver : BitVec 32
  deriving DecidableEq, Repr

/-- The legal values of `LENPOL` (10_state.md R36); the value 3 is illegal and never held. -/
inductive LenPolicy where
  | permissive | exact | framed
  deriving DecidableEq, Repr

/-- The causes of a fault (60_exceptions.md R260). -/
inductive Cause where
  | invalidCharacter | lengthMismatch | readOverrun | frameConsistency | rangeError
  | bufferOverflow | illegalCommand | illegalOperand | sequenceError
  deriving DecidableEq, Repr

/-- The fields of STATUS (10_state.md R34); `none` is the cause code 0. -/
structure Status where
  /-- ERR: some command has faulted since reset or the last CLRST. -/
  err : Bool
  /-- UNDER: some FD_BODY walk consumed less than declared and did not fault. -/
  underrun : Bool
  /-- OVER: some FD_BODY walk under PERMISSIVE consumed more than declared. -/
  overrun : Bool
  /-- FCAUSE: the cause of the first fault since reset or the last CLRST. -/
  fcause : Option Cause
  /-- LCAUSE: the cause of the most recent fault. -/
  lcause : Option Cause
  deriving DecidableEq, Repr

/-- The response to a transaction (30_encoding.md R70, 60_exceptions.md R272). -/
structure Response where
  /-- FAULT. -/
  fault : Bool
  /-- CAUSE; `none` is the code 0 of a command that completes. -/
  cause : Option Cause
  /-- RES after the command. -/
  res : DataWord
  /-- The text-out port: the digits of BS_STR, else nothing. -/
  text : List Byte
  deriving DecidableEq, Repr

/-- What the outside does to the block: it issues a transaction (30_encoding.md R70) or applies reset
(70_reset_and_hazards.md R300). -/
inductive HostEvent where
  | transaction (t : Transaction)
  | reset
  deriving DecidableEq, Repr

/-- The state of the block. The fields up to `faultInfo` are the spec's; `params` holds the instance's
parameters; the last three are the model's own (INVENTORY.md, assumption logs 2 to 5). -/
structure State where
  /-- `BS[0..15]` (10_state.md R23). -/
  bs : Vector BitString 16
  /-- `W.BUF` (R25). -/
  wBuf : BitString
  /-- `R.SRC` (R26). -/
  rSrc : BitString
  /-- `R.POS` (R26). -/
  rPos : Nat
  /-- `RES` (R27). -/
  res : DataWord
  /-- `FD.TAG` (R28). -/
  fdTag : BitVec 32
  /-- `FD.LEN` (R28). -/
  fdLen : BitVec 32
  /-- `FD.PSTART` (R28). -/
  fdPstart : BitVec 32
  /-- `FD.HVALID` (R28). -/
  fdHvalid : Bool
  /-- `FD.CONSUMED` (R28). -/
  fdConsumed : BitVec 32
  /-- `SCH.TAG` (R30). -/
  schTag : BitVec 32
  /-- `SCH.NF` (R30). -/
  schNf : Nat
  /-- `SCH.FD[0..MAX_FIELDS-1]` (R30). -/
  schFd : List Descriptor
  /-- `SCH.DEF[0..MAX_FIELDS-1]` (R30). -/
  schDef : List DataWord
  /-- `FV[0..MAX_FIELDS-1]` (R32). -/
  fv : List DataWord
  /-- `I32_OFFSET` (R35). -/
  i32Offset : BitVec 32
  /-- `LENPOL` (R36). -/
  lenpol : LenPolicy
  /-- `STATUS` (R34). -/
  status : Status
  /-- `FAULT_CMD` (R37). -/
  faultCmd : CommandWord
  /-- `FAULT_INFO` (R37). -/
  faultInfo : DataWord
  /-- The parameters of the instance (00_scope.md R7). -/
  params : Params
  /-- The index of the next free NaN draw (41_numeric_codec.md R131). -/
  nanDraws : Nat
  /-- What the host sends next, oldest first. -/
  hostIn : List HostEvent
  /-- The responses given so far, oldest first. -/
  hostOut : List Response
  deriving DecidableEq, Repr

/-- The reasons a step could stop the machine with a fault: none. Every fault of 60_exceptions.md is a
next state, after which the block accepts the next command (R276), so nobody raises one (assumption log
18; safe). -/
inductive Fault where
  deriving DecidableEq, Repr

/-- The reasons a step could refuse. -/
inductive Refusal where
  /-- An instruction without a meaning: raised by `exec` alone, for an arm that rejects by name. Every
  command has its meaning, so nothing raises it (safe). -/
  | notModelled (mnemonic : String)
  deriving DecidableEq, Repr

/-- The reset descriptor (U16, 16, 0) (10_state.md R38, R42). -/
def Descriptor.reset : Descriptor := { kind := .u16, width := 16, ver := 0 }

/-- STATUS after reset and after CLRST (10_state.md R34, R42). -/
def Status.clear : Status :=
  { err := false, underrun := false, overrun := false, fcause := none, lcause := none }

/-- An instance with parameters `p` right after reset: the table of 10_state.md R42. -/
def State.resetWith (p : Params) : State where
  bs := Vector.replicate 16 []
  wBuf := []
  rSrc := []
  rPos := 0
  res := 0
  fdTag := 0
  fdLen := 0
  fdPstart := 0
  fdHvalid := false
  fdConsumed := 0
  schTag := 0
  schNf := 0
  schFd := List.replicate p.maxFields Descriptor.reset
  schDef := List.replicate p.maxFields 0
  fv := List.replicate p.maxFields 0
  i32Offset := Config.i32OffsetReset
  lenpol := .framed
  status := Status.clear
  faultCmd := 0
  faultInfo := 0
  params := p
  nanDraws := 0
  hostIn := []
  hostOut := []

/-- The machine right after reset, with the default parameters (10_state.md R42, 00_scope.md R7). -/
def State.reset : State := State.resetWith Params.default

end Sys2Proof.Machine
end

