-- ==== Sys2Proof/Machine/Flags.lean ====
section
/-!
DEFINITION. Cause codes and every computation over STATUS (10_state.md R34, 60_exceptions.md R260).
-/

namespace Sys2Proof.Machine

/-- The 4-bit code of a cause (60_exceptions.md R260). -/
def Cause.code : Cause → BitVec 4
  | .invalidCharacter => 1
  | .lengthMismatch => 2
  | .readOverrun => 3
  | .frameConsistency => 4
  | .rangeError => 5
  | .bufferOverflow => 6
  | .illegalCommand => 7
  | .illegalOperand => 8
  | .sequenceError => 9

/-- The code held in a cause field: 0 if none (10_state.md R34). -/
def causeCode : Option Cause → BitVec 4
  | none => 0
  | some c => c.code

/-- STATUS as the 12-bit word RDREG reads: LCAUSE 11:8, FCAUSE 7:4, reserved 3, OVER 2, UNDER 1, ERR 0
(10_state.md R34). -/
def Status.word (st : Status) : BitVec 12 :=
  causeCode st.lcause ++ causeCode st.fcause ++ 0#1 ++ BitVec.ofBool st.overrun ++
    BitVec.ofBool st.underrun ++ BitVec.ofBool st.err

/-- A fault's effect on STATUS: ERR set, FCAUSE kept if it holds a cause, LCAUSE replaced
(60_exceptions.md R271, R276). -/
def Status.recordFault (st : Status) (c : Cause) : Status :=
  { st with
    err := true
    fcause := match st.fcause with
      | none => some c
      | some first => some first
    lcause := some c }

/-- FD_BODY's UNDER flag (46_frame_decoder.md R223). -/
def Status.setUnder (st : Status) : Status := { st with underrun := true }

/-- FD_BODY's OVER flag (46_frame_decoder.md R223). -/
def Status.setOver (st : Status) : Status := { st with overrun := true }

end Sys2Proof.Machine
end

