-- ==== Sys2Proof/Machine/Ops.lean ====
section
/-!
DEFINITION. The shared operations: digits and integers (00_scope.md R9 to R14), the reads and writes of the
block's storage, the writer's `Append`, the reader's `ReadBits`, the NaN draw, what a fault records and what
the block answers.
-/

namespace Sys2Proof.Machine

/-! ### Digits and integers -/

/-- `bits_n(v)`: digit `p` is bit `n-1-p` of `v` (00_scope.md R11). It takes the low `n` bits of any `v`;
the RangeError of R11 is raised by `encUnsigned`. -/
def bitsOf : Nat → Nat → BitString
  | 0, _ => []
  | n + 1, v => v.testBit n :: bitsOf n v

/-- `uval(b)`: the base-2 literal, position 0 most significant (00_scope.md R12). -/
def uval : BitString → Nat
  | [] => 0
  | b :: bs => b.toNat * 2 ^ bs.length + uval bs

/-- `slice(b, p, n)` (00_scope.md R13). -/
def slice (b : BitString) (p n : Nat) : BitString := (b.drop p).take n

/-- `D[31:0]`. -/
def lowWord (d : DataWord) : BitVec 32 := d.extractLsb' 0 32

/-- Two numbers as the halves of an information word: `hi << 32 | lo` (60_exceptions.md R270). -/
def pairWord (hi lo : Nat) : DataWord := BitVec.ofNat 32 hi ++ BitVec.ofNat 32 lo

/-! ### What a command raises -/

/-- `raise <Cause>(info)` of 00_scope.md R15, with the numbers the information word is made of. -/
inductive Raise where
  /-- The offending byte and its position in the text. -/
  | invalidCharacter (byte : Byte) (position : Nat)
  /-- The width the view requires (0 for AS_NUM) and the length found. -/
  | lengthMismatch (expected actual : Nat)
  /-- The bits left in `R.SRC` and the bits asked for. -/
  | readOverrun (remaining requested : Nat)
  /-- `FD.LEN` and the bits the walk consumed. -/
  | frameConsistency (declared consumed : Nat)
  /-- The field index when FE_ENC raises it, and the width encoded into. -/
  | rangeError (field : Option Nat) (width : Nat)
  /-- The length the result would have had. -/
  | bufferOverflow (length : Nat)
  | illegalCommand
  | illegalOperand
  | sequenceError
  deriving DecidableEq, Repr

/-- The cause of a raise (60_exceptions.md R260). -/
def Raise.cause : Raise → Cause
  | .invalidCharacter _ _ => .invalidCharacter
  | .lengthMismatch _ _ => .lengthMismatch
  | .readOverrun _ _ => .readOverrun
  | .frameConsistency _ _ => .frameConsistency
  | .rangeError _ _ => .rangeError
  | .bufferOverflow _ => .bufferOverflow
  | .illegalCommand => .illegalCommand
  | .illegalOperand => .illegalOperand
  | .sequenceError => .sequenceError

/-- The information word of a raise (60_exceptions.md R270). -/
def Raise.info : Raise → DataWord
  | .invalidCharacter byte position => pairWord byte.toNat position
  | .lengthMismatch expected actual => pairWord expected actual
  | .readOverrun remaining requested => pairWord remaining (min requested 0xFFFFFFFF)
  | .frameConsistency declared consumed => pairWord declared consumed
  | .rangeError none width => BitVec.ofNat 64 width
  | .rangeError (some field) width => BitVec.ofNat 64 (1 <<< 16 ||| field <<< 8 ||| width)
  | .bufferOverflow length => BitVec.ofNat 64 length
  | .illegalCommand => 0
  | .illegalOperand => 0
  | .sequenceError => 0

/-! ### Storage -/

/-- `BS[r]` (10_state.md R23). -/
def State.readBS (r : BsReg) (s : State) : BitString := s.bs[r.toNat]'r.isLt

/-- `BS[r] <- b`, whole (10_state.md R24). -/
def State.writeBS (r : BsReg) (b : BitString) (s : State) : State :=
  { s with bs := s.bs.set r.toNat b r.isLt }

/-- `RES <- v` (10_state.md R27). -/
def State.setRes (v : DataWord) (s : State) : State := { s with res := v }

/-- `SCH.FD[i]` (10_state.md R30). -/
def State.descriptor (i : Nat) (s : State) : Descriptor := s.schFd.getD i Descriptor.reset

/-- `SCH.FD[i] <- d`. -/
def State.writeDescriptor (i : Nat) (d : Descriptor) (s : State) : State :=
  { s with schFd := s.schFd.set i d }

/-- `SCH.DEF[i]` (10_state.md R30). -/
def State.defaultValue (i : Nat) (s : State) : DataWord := s.schDef.getD i 0

/-- `SCH.DEF[i] <- v`. -/
def State.writeDefault (i : Nat) (v : DataWord) (s : State) : State :=
  { s with schDef := s.schDef.set i v }

/-- `FV[i]` (10_state.md R32). -/
def State.fieldValue (i : Nat) (s : State) : DataWord := s.fv.getD i 0

/-- `FV[i] <- v`. -/
def State.writeFieldValue (i : Nat) (v : DataWord) (s : State) : State :=
  { s with fv := s.fv.set i v }

/-- `FD.HVALID <- 0` (10_state.md R29). -/
def State.clearLatch (s : State) : State := { s with fdHvalid := false }

/-- The writer's only access to `W.BUF` (42_cursor_writer.md R160). -/
def State.append (b : BitString) (s : State) : Except Raise State :=
  if s.wBuf.length + b.length > s.params.capBits then
    .error (.bufferOverflow (s.wBuf.length + b.length))
  else .ok { s with wBuf := s.wBuf ++ b }

/-- `len(R.SRC) - R.POS`, the bits not yet consumed (43_cursor_reader.md R180). -/
def State.remaining (s : State) : Nat := s.rSrc.length - s.rPos

/-- The reader's only access to `R.SRC` (43_cursor_reader.md R180): the bits read and the state after. -/
def State.readBits (n : Nat) (s : State) : Except Raise (BitString × State) :=
  if n > s.remaining then .error (.readOverrun s.remaining n)
  else .ok (slice s.rSrc s.rPos n, { s with rPos := s.rPos + n })

/-! ### NaN patterns and the NaN draw -/

/-- `NaNset`: exponent all ones and a nonzero mantissa (41_numeric_codec.md R131). -/
def isNaN (f : BitVec 32) : Bool := f.extractLsb' 23 8 == 0xFF && f.extractLsb' 0 23 != 0

/-- A raw draw as a member of `NaNset`. A raw draw that is a NaN pattern is that pattern, so every member
is the draw of some raw value; the others go to one member, which constrains nothing, since nothing is
known of the raw draw (41_numeric_codec.md R131; assumption log 4). -/
def drawNaN (raw : BitVec 32) : BitVec 32 := if isNaN raw then raw else 0x7F800001

/-- The raw draw the next f32 conversion uses. -/
def State.nextDraw (s : State) : BitVec 32 := Config.nanDraw s.nanDraws

/-- How far a conversion of one value of a kind moves the draw counter: each f32 conversion has a draw of
its own (41_numeric_codec.md R131). -/
def drawsOf : Kind → Nat
  | .u16 => 0
  | .u32 => 0
  | .i32 => 0
  | .u64 => 0
  | .f32 => 1
  | .num => 0

/-- The counter moves past the draw of one conversion of a kind. -/
def State.useDraw (k : Kind) (s : State) : State := { s with nanDraws := s.nanDraws + drawsOf k }

/-! ### Taking a fault, acknowledging it, and answering -/

/-- The response to a command that completes: FAULT = 0, CAUSE = 0, RES after the command
(60_exceptions.md R272). -/
def State.respond (text : List Byte) (s : State) : State :=
  { s with hostOut := s.hostOut ++ [{ fault := false, cause := none, res := s.res, text := text }] }

/-- What a fault with command word `cw` does: the fault record of 60_exceptions.md R271 and the response of
R272, and nothing else. `s` is the state before the command: its working copy is discarded
(00_scope.md R16). -/
def State.takeFault (cw : CommandWord) (r : Raise) (s : State) : State :=
  { s with
    status := s.status.recordFault r.cause
    faultCmd := cw
    faultInfo := r.info
    hostOut := s.hostOut ++ [{ fault := true, cause := some r.cause, res := s.res, text := [] }] }

/-- The acknowledgement of a fault, the nearest the block has to a return (60_exceptions.md R276): the
writes of CLRST (47_control.md R242). -/
def State.acknowledge (s : State) : State :=
  { s with status := Status.clear, faultCmd := 0, faultInfo := 0 }

/-- The end of a command (00_scope.md R16): the working copy becomes the state and the block answers, or
the command faults. `s` is the state before the command. -/
def finish (cw : CommandWord) (s : State) (r : Except Raise State) :
    Host.Outcome State Fault Refusal :=
  match r with
  | .ok t => .next (t.respond [])
  | .error e => .next (s.takeFault cw e)

end Sys2Proof.Machine
end

