-- ==== Sys2Proof/Machine/Operands.lean ====
section
/-!
DEFINITION. The operand forms of 30_encoding.md R74 with the check each makes, the packed descriptor of
10_state.md R38, the CSR addresses of R33, and the text port's characters (40_bitstring_buffer.md R100).
-/

namespace Sys2Proof.Machine

/-! ### Immediates -/

/-- `#w`: a field width, 1 to 64, else IllegalOperand (30_encoding.md R74, R78). -/
def widthOperand (w : Imm) : Except Raise Nat :=
  if w.toNat < 1 ∨ w.toNat > 64 then .error .illegalOperand else .ok w.toNat

/-- `#i`: a field index below MAX_FIELDS, else IllegalOperand (30_encoding.md R74, R78). -/
def fieldOperand (i : Imm) (s : State) : Except Raise Nat :=
  if i.toNat ≥ s.params.maxFields then .error .illegalOperand else .ok i.toNat

/-! ### Descriptors -/

/-- The kind codes 0 to 5 (10_state.md R38). -/
def Kind.code : Kind → BitVec 3
  | .u16 => 0
  | .u32 => 1
  | .i32 => 2
  | .u64 => 3
  | .f32 => 4
  | .num => 5

/-- The kind of a code; 6 and 7 are not kinds (10_state.md R38). -/
def kindOfCode (c : BitVec 3) : Option Kind :=
  match c.toNat with
  | 0 => some .u16
  | 1 => some .u32
  | 2 => some .i32
  | 3 => some .u64
  | 4 => some .f32
  | 5 => some .num
  | _ => none

/-- The one width of the first five kinds; NUM has none of its own (10_state.md R31). -/
def Kind.fixedWidth : Kind → Option Nat
  | .u16 => some 16
  | .u32 => some 32
  | .i32 => some 32
  | .u64 => some 64
  | .f32 => some 32
  | .num => none

/-- Whether a width agrees with a kind: equal to the fixed width, or 1 to 64 for NUM (10_state.md R31). -/
def Kind.admitsWidth (k : Kind) (w : Nat) : Bool :=
  match k.fixedWidth with
  | some n => w == n
  | none => decide (1 ≤ w) && decide (w ≤ 64)

/-- A well-formed descriptor (10_state.md R31). -/
def Descriptor.wf (d : Descriptor) : Bool := d.kind.admitsWidth d.width.toNat

/-- A descriptor as the 64-bit word RDREG reads: `ver` 63:32, kind code 10:8, width 6:0, all other bits 0
(10_state.md R38). -/
def Descriptor.word (d : Descriptor) : DataWord :=
  d.ver ++ 0#21 ++ d.kind.code ++ 0#1 ++ d.width

/-- The descriptor in the data word of SCH_FD, other bits ignored: IllegalOperand for kind code 6 or 7 or
a width that does not agree with the kind (44_frame_schema.md R200). -/
def descriptorOperand (d : DataWord) : Except Raise Descriptor :=
  match kindOfCode (d.extractLsb' 8 3) with
  | none => .error .illegalOperand
  | some k =>
    if k.admitsWidth (d.extractLsb' 0 7).toNat then
      .ok { kind := k, width := d.extractLsb' 0 7, ver := d.extractLsb' 32 32 }
    else .error .illegalOperand

/-! ### CSR addresses -/

/-- The control and status registers (10_state.md R33). -/
inductive Csr where
  | status | i32Offset | lenpol | rPos | rLen | wLen | fdTag | fdLen | fdPstart | fdHvalid | fdConsumed
  | schTag | schNf | cap | maxf | nbsreg | faultCmd | faultInfo
  /-- `SCH_FD_i` at 0x100 + i. -/
  | schFd (i : Nat)
  /-- `SCH_DEF_i` at 0x200 + i. -/
  | schDef (i : Nat)
  deriving DecidableEq, Repr

/-- `#csr`: the register at an address; an address outside the table is unmapped, IllegalOperand
(10_state.md R33, 30_encoding.md R78). -/
def csrOperand (a : Imm) (s : State) : Except Raise Csr :=
  match a.toNat with
  | 0x000 => .ok .status
  | 0x001 => .ok .i32Offset
  | 0x002 => .ok .lenpol
  | 0x003 => .ok .rPos
  | 0x004 => .ok .rLen
  | 0x005 => .ok .wLen
  | 0x006 => .ok .fdTag
  | 0x007 => .ok .fdLen
  | 0x008 => .ok .fdPstart
  | 0x009 => .ok .fdHvalid
  | 0x00A => .ok .fdConsumed
  | 0x00B => .ok .schTag
  | 0x00C => .ok .schNf
  | 0x00D => .ok .cap
  | 0x00E => .ok .maxf
  | 0x00F => .ok .nbsreg
  | 0x010 => .ok .faultCmd
  | 0x011 => .ok .faultInfo
  | n =>
    if 0x100 ≤ n ∧ n < 0x100 + s.params.maxFields then .ok (.schFd (n - 0x100))
    else if 0x200 ≤ n ∧ n < 0x200 + s.params.maxFields then .ok (.schDef (n - 0x200))
    else .error .illegalOperand

/-- The code of a length policy (10_state.md R36). -/
def LenPolicy.code : LenPolicy → BitVec 2
  | .permissive => 0
  | .exact => 1
  | .framed => 2

/-- The length policy of a code; 3 is illegal (10_state.md R36). -/
def lenPolicyOfCode (c : BitVec 2) : Option LenPolicy :=
  match c.toNat with
  | 0 => some .permissive
  | 1 => some .exact
  | 2 => some .framed
  | _ => none

/-! ### Text -/

/-- The digit a byte stands for: 0x30 is 0, 0x31 is 1, any other byte no digit
(40_bitstring_buffer.md R100). -/
def digitOf (c : Byte) : Option Bool :=
  if c = 0x30 then some false else if c = 0x31 then some true else none

/-- The byte of a digit (40_bitstring_buffer.md R100). -/
def charOf (b : Bool) : Byte := if b then 0x31 else 0x30

/-- The digits of a text whose first byte is at position `j`, or InvalidCharacter for the first byte that is
no digit (40_bitstring_buffer.md R101). -/
def digitsFrom (j : Nat) : List Byte → Except Raise BitString
  | [] => .ok []
  | c :: cs =>
    match digitOf c with
    | none => .error (.invalidCharacter c j)
    | some b =>
      match digitsFrom (j + 1) cs with
      | .error e => .error e
      | .ok bs => .ok (b :: bs)

end Sys2Proof.Machine
end

