-- ==== Sys2Proof/Machine/BitStringBuffer.lean ====
section
/-!
DEFINITION. The bitstring_buffer commands (40_bitstring_buffer.md).
-/

namespace Sys2Proof.Machine

/-- BS_TEXT `bD, "text"`: the capacity check, then the characters in order (40_bitstring_buffer.md R101). -/
def execBsText (rd : BsReg) (text : List Byte) (s : State) : Host.Outcome State Fault Refusal :=
  finish (commandWord (.bsText rd text)) s <|
    if text.length > s.params.capBits then .error (.bufferOverflow text.length)
    else
      match digitsFrom 0 text with
      | .error e => .error e
      | .ok b => .ok (s.writeBS rd b)

/-- BS_STR `bS`: the response carries the digits as text, and no state changes
(40_bitstring_buffer.md R102). -/
def execBsStr (rs : BsReg) (s : State) : Host.Outcome State Fault Refusal :=
  .next (s.respond ((s.readBS rs).map charOf))

/-- Whether a text is a nonempty BitString; false for the empty text (40_bitstring_buffer.md R103). -/
def isBinary (text : List Byte) : Bool :=
  decide (1 ≤ text.length) && text.all fun c => (digitOf c).isSome

/-- IS_BIN `"text"` (40_bitstring_buffer.md R103). -/
def execIsBin (text : List Byte) (s : State) : Host.Outcome State Fault Refusal :=
  finish (commandWord (.isBin text)) s (.ok (s.setRes (if isBinary text then 1 else 0)))

/-- BS_LEN `bS` (40_bitstring_buffer.md R104). -/
def execBsLen (rs : BsReg) (s : State) : Host.Outcome State Fault Refusal :=
  finish (commandWord (.bsLen rs)) s (.ok (s.setRes (BitVec.ofNat 64 (s.readBS rs).length)))

end Sys2Proof.Machine
end

