-- ==== Sys2Proof/Machine/Numeric.lean ====
section
/-!
DEFINITION. The conversion functions between BitStrings and the six numeric views
(41_numeric_codec.md R120 to R136).
-/

namespace Sys2Proof.Machine

/-- `bits_w(v)` with its RangeError (00_scope.md R11): the u16, u32 and NUM(w) encodings
(41_numeric_codec.md R122, R123, R134). `fe` is the field index when FE_ENC encodes. -/
def encUnsigned (fe : Option Nat) (w v : Nat) : Except Raise BitString :=
  if v < 2 ^ w then .ok (bitsOf w v) else .error (.rangeError fe w)

/-- `enc_i32(v, off)` (41_numeric_codec.md R124). -/
def encI32 (fe : Option Nat) (v : Int) (off : Nat) : Except Raise BitString :=
  if 0 ≤ v then
    if v > 2 ^ 31 - 1 then .error (.rangeError fe 31) else .ok (true :: bitsOf 31 v.toNat)
  else if v + off < 0 ∨ v + off > 2 ^ 31 - 1 then .error (.rangeError fe 31)
  else .ok (false :: bitsOf 31 (v + off).toNat)

/-- `dec_i32(b, off)` (41_numeric_codec.md R125). -/
def decI32 (b : BitString) (off : Nat) : Int :=
  if b.headD false then (uval (slice b 1 31) : Int) else (uval (slice b 1 31) : Int) - off

/-- `enc_u64(v)`: the low half first (41_numeric_codec.md R128). -/
def encU64 (v : DataWord) : BitString :=
  bitsOf 32 (v.extractLsb' 0 32).toNat ++ bitsOf 32 (v.extractLsb' 32 32).toNat

/-- `dec_u64(b)` (41_numeric_codec.md R129). -/
def decU64 (b : BitString) : Nat := uval (slice b 32 32) * 2 ^ 32 + uval (slice b 0 32)

/-- A pattern that is a NaN gives the drawn NaN pattern, any other passes bit-exact
(41_numeric_codec.md R130 to R132). `raw` is the raw draw. -/
def passF32 (f raw : BitVec 32) : BitVec 32 := if isNaN f then drawNaN raw else f

/-- `enc_f32(f)` (41_numeric_codec.md R130, R131). -/
def encF32 (f raw : BitVec 32) : BitString := bitsOf 32 (passF32 f raw).toNat

/-- `dec_f32(b)` (41_numeric_codec.md R132). -/
def decF32 (b : BitString) (raw : BitVec 32) : BitVec 32 := passF32 (BitVec.ofNat 32 (uval b)) raw

/-- `check_len(b, K)` (41_numeric_codec.md R135). -/
def checkLen (k : Kind) (b : BitString) : Except Raise Unit :=
  match k.fixedWidth with
  | some n => if b.length ≠ n then .error (.lengthMismatch n b.length) else .ok ()
  | none => if b.length < 1 ∨ b.length > 64 then .error (.lengthMismatch 0 b.length) else .ok ()

/-- `encK(K, x)`, on host words (41_numeric_codec.md R121, R136); `w` is the width of a NUM. -/
def encK (fe : Option Nat) (k : Kind) (w : Nat) (x : DataWord) (off raw : BitVec 32) :
    Except Raise BitString :=
  match k with
  | .u16 => encUnsigned fe 16 x.toNat
  | .u32 => encUnsigned fe 32 x.toNat
  | .i32 => encI32 fe x.toInt off.toNat
  | .u64 => .ok (encU64 x)
  | .f32 => .ok (encF32 (lowWord x) raw)
  | .num => encUnsigned fe w x.toNat

/-- `decK(K, b)`, to host words (41_numeric_codec.md R121, R136). -/
def decK (k : Kind) (b : BitString) (off raw : BitVec 32) : DataWord :=
  match k with
  | .u16 => BitVec.ofNat 64 (uval b)
  | .u32 => BitVec.ofNat 64 (uval b)
  | .i32 => BitVec.ofInt 64 (decI32 b off.toNat)
  | .u64 => BitVec.ofNat 64 (decU64 b)
  | .f32 => (decF32 b raw).setWidth 64
  | .num => BitVec.ofNat 64 (uval b)

/-- `encK` with the offset and the draw the state gives; FE_ENC names its field. -/
def State.encode (fe : Option Nat) (k : Kind) (w : Nat) (x : DataWord) (s : State) :
    Except Raise BitString := encK fe k w x s.i32Offset s.nextDraw

/-- `decK` with the offset and the draw the state gives. -/
def State.decode (k : Kind) (b : BitString) (s : State) : DataWord := decK k b s.i32Offset s.nextDraw

end Sys2Proof.Machine
end

