-- ==== Sys2Proof/Machine/Codec.lean ====
section
/-!
DEFINITION. The codec commands: value to BitString and BitString to value (41_numeric_codec.md section 2).
-/

namespace Sys2Proof.Machine

/-- `BS[RD] <- encK(K, D)`, the shape of every FROM_ command (41_numeric_codec.md R140 to R145). -/
def fromView (k : Kind) (w : Nat) (rd : BsReg) (d : DataWord) (s : State) : Except Raise State :=
  match s.encode none k w d with
  | .error e => .error e
  | .ok b => .ok ((s.writeBS rd b).useDraw k)

/-- `b <- BS[RS]; check_len(b, K); RES <- decK(K, b)`, the shape of every AS_ command
(41_numeric_codec.md R146 to R151). -/
def asView (k : Kind) (rs : BsReg) (s : State) : Except Raise State :=
  match checkLen k (s.readBS rs) with
  | .error e => .error e
  | .ok _ => .ok ((s.setRes (s.decode k (s.readBS rs))).useDraw k)

/-- FROM_U16 (41_numeric_codec.md R140). -/
def execFromU16 (rd : BsReg) (d : DataWord) (s : State) : Host.Outcome State Fault Refusal :=
  finish (commandWord (.fromU16 rd d)) s (fromView .u16 16 rd d s)

/-- FROM_U32 (41_numeric_codec.md R141). -/
def execFromU32 (rd : BsReg) (d : DataWord) (s : State) : Host.Outcome State Fault Refusal :=
  finish (commandWord (.fromU32 rd d)) s (fromView .u32 32 rd d s)

/-- FROM_I32 (41_numeric_codec.md R142). -/
def execFromI32 (rd : BsReg) (d : DataWord) (s : State) : Host.Outcome State Fault Refusal :=
  finish (commandWord (.fromI32 rd d)) s (fromView .i32 32 rd d s)

/-- FROM_U64 (41_numeric_codec.md R143). -/
def execFromU64 (rd : BsReg) (d : DataWord) (s : State) : Host.Outcome State Fault Refusal :=
  finish (commandWord (.fromU64 rd d)) s (fromView .u64 64 rd d s)

/-- FROM_F32 (41_numeric_codec.md R144). -/
def execFromF32 (rd : BsReg) (d : DataWord) (s : State) : Host.Outcome State Fault Refusal :=
  finish (commandWord (.fromF32 rd d)) s (fromView .f32 32 rd d s)

/-- FROM_NUM: the width is checked first (41_numeric_codec.md R145). -/
def execFromNum (rd : BsReg) (w : Imm) (d : DataWord) (s : State) : Host.Outcome State Fault Refusal :=
  finish (commandWord (.fromNum rd w d)) s <|
    match widthOperand w with
    | .error e => .error e
    | .ok n => fromView .num n rd d s

/-- AS_U16 (41_numeric_codec.md R146). -/
def execAsU16 (rs : BsReg) (s : State) : Host.Outcome State Fault Refusal :=
  finish (commandWord (.asU16 rs)) s (asView .u16 rs s)

/-- AS_U32 (41_numeric_codec.md R147). -/
def execAsU32 (rs : BsReg) (s : State) : Host.Outcome State Fault Refusal :=
  finish (commandWord (.asU32 rs)) s (asView .u32 rs s)

/-- AS_I32 (41_numeric_codec.md R148). -/
def execAsI32 (rs : BsReg) (s : State) : Host.Outcome State Fault Refusal :=
  finish (commandWord (.asI32 rs)) s (asView .i32 rs s)

/-- AS_U64 (41_numeric_codec.md R149). -/
def execAsU64 (rs : BsReg) (s : State) : Host.Outcome State Fault Refusal :=
  finish (commandWord (.asU64 rs)) s (asView .u64 rs s)

/-- AS_F32 (41_numeric_codec.md R150). -/
def execAsF32 (rs : BsReg) (s : State) : Host.Outcome State Fault Refusal :=
  finish (commandWord (.asF32 rs)) s (asView .f32 rs s)

/-- AS_NUM (41_numeric_codec.md R151). -/
def execAsNum (rs : BsReg) (s : State) : Host.Outcome State Fault Refusal :=
  finish (commandWord (.asNum rs)) s (asView .num rs s)

end Sys2Proof.Machine
end

