-- ==== Sys2Proof/Machine/Control.lean ====
section
/-!
DEFINITION. The control commands (47_control.md) and the CSRs they read and write (10_state.md R33).
-/

namespace Sys2Proof.Machine

/-- The value of a CSR, zero-extended to 64 bits (10_state.md R33). -/
def csrRead (s : State) : Csr → DataWord
  | .status => s.status.word.setWidth 64
  | .i32Offset => s.i32Offset.setWidth 64
  | .lenpol => s.lenpol.code.setWidth 64
  | .rPos => (BitVec.ofNat 32 s.rPos).setWidth 64
  | .rLen => (BitVec.ofNat 32 s.rSrc.length).setWidth 64
  | .wLen => (BitVec.ofNat 32 s.wBuf.length).setWidth 64
  | .fdTag => s.fdTag.setWidth 64
  | .fdLen => s.fdLen.setWidth 64
  | .fdPstart => s.fdPstart.setWidth 64
  | .fdHvalid => (BitVec.ofBool s.fdHvalid).setWidth 64
  | .fdConsumed => s.fdConsumed.setWidth 64
  | .schTag => s.schTag.setWidth 64
  | .schNf => (BitVec.ofNat 9 s.schNf).setWidth 64
  | .cap => (BitVec.ofNat 32 s.params.capBits).setWidth 64
  | .maxf => (BitVec.ofNat 9 s.params.maxFields).setWidth 64
  | .nbsreg => (BitVec.ofNat 5 Config.nbs).setWidth 64
  | .faultCmd => s.faultCmd.setWidth 64
  | .faultInfo => s.faultInfo
  | .schFd i => (s.descriptor i).word
  | .schDef i => s.defaultValue i

/-- The write of a CSR: the four that are RW, with their legal values; every other is read-only
(47_control.md R241). -/
def csrWrite (c : Csr) (d : DataWord) (s : State) : Except Raise State :=
  match c with
  | .i32Offset => .ok { s with i32Offset := lowWord d }
  | .lenpol =>
    match lenPolicyOfCode (d.extractLsb' 0 2) with
    | some p => .ok { s with lenpol := p }
    | none => .error .illegalOperand
  | .schTag => .ok { s with schTag := lowWord d }
  | .schNf =>
    if (lowWord d).toNat > s.params.maxFields then .error .illegalOperand
    else .ok { s with schNf := (lowWord d).toNat }
  | .status | .rPos | .rLen | .wLen | .fdTag | .fdLen | .fdPstart | .fdHvalid | .fdConsumed | .cap
  | .maxf | .nbsreg | .faultCmd | .faultInfo | .schFd _ | .schDef _ => .error .illegalOperand

/-- RDREG `#a` (47_control.md R240). -/
def execRdreg (csr : Imm) (s : State) : Host.Outcome State Fault Refusal :=
  finish (commandWord (.rdreg csr)) s <|
    match csrOperand csr s with
    | .error e => .error e
    | .ok c => .ok (s.setRes (csrRead s c))

/-- WRREG `#a, =d` (47_control.md R241). -/
def execWrreg (csr : Imm) (d : DataWord) (s : State) : Host.Outcome State Fault Refusal :=
  finish (commandWord (.wrreg csr d)) s <|
    match csrOperand csr s with
    | .error e => .error e
    | .ok c => csrWrite c d s

/-- CLRST (47_control.md R242). -/
def execClrst (s : State) : Host.Outcome State Fault Refusal :=
  finish (commandWord .clrst) s (.ok s.acknowledge)

end Sys2Proof.Machine
end

