-- ==== Sys2Proof/Machine/FrameEncoder.lean ====
section
/-!
DEFINITION. The component_frame_encoder (45_frame_encoder.md).
-/

namespace Sys2Proof.Machine

/-- Whether field `i` of the schema is present at version `v`: `SCH.FD[i].ver <= v`, both unsigned
(44_frame_schema.md R204). -/
def State.present (v : BitVec 32) (i : Nat) (s : State) : Bool :=
  decide ((s.descriptor i).ver.toNat ≤ v.toNat)

/-- One turn of FE_ENC's field loop on `(dataBits, state)`: the state changes only in the draw counter
(45_frame_encoder.md R211 step 2). -/
def encodeField (v : BitVec 32) (i : Nat) (dataBits : BitString) (s : State) :
    Except Raise (BitString × State) :=
  if s.present v i then
    match s.encode (some i) (s.descriptor i).kind (s.descriptor i).width.toNat (s.fieldValue i) with
    | .error e => .error e
    | .ok b => .ok (dataBits ++ b, s.useDraw (s.descriptor i).kind)
  else .ok (dataBits, s)

/-- FE_ENC's field loop over the `n` fields from `i` on, in declaration order
(45_frame_encoder.md R211 step 2). -/
def encodeFields (v : BitVec 32) : Nat → Nat → BitString → State → Except Raise (BitString × State)
  | 0, _, dataBits, s => .ok (dataBits, s)
  | n + 1, i, dataBits, s =>
    match encodeField v i dataBits s with
    | .error e => .error e
    | .ok (dataBits', s') => encodeFields v n (i + 1) dataBits' s'

/-- A frame: `bits_32(tag) ++ bits_32(length) ++ payload` (45_frame_encoder.md R210). -/
def frameOf (tag : BitVec 32) (dataBits : BitString) : BitString :=
  bitsOf 32 tag.toNat ++ bitsOf 32 dataBits.length ++ dataBits

/-- FE_ENC (45_frame_encoder.md R211), with the two checks the rule says cannot occur. The first one names
no field: its information word has the FE_ENC bit of 60_exceptions.md R270 and field 0 (assumption log 15). -/
def execFeEnc (rd : BsReg) (v : DataWord) (s : State) : Host.Outcome State Fault Refusal :=
  finish (commandWord (.feEnc rd v)) s <|
    match encodeFields (lowWord v) s.schNf 0 [] s with
    | .error e => .error e
    | .ok (dataBits, t) =>
      if dataBits.length > 2 ^ 32 - 1 then .error (.rangeError (some 0) 32)
      else if (frameOf s.schTag dataBits).length > s.params.capBits then
        .error (.bufferOverflow (frameOf s.schTag dataBits).length)
      else
        .ok ((t.writeBS rd (frameOf s.schTag dataBits)).setRes (BitVec.ofNat 64 dataBits.length))

end Sys2Proof.Machine
end

