-- ==== Sys2Proof/Machine/FrameDecoder.lean ====
section
/-!
DEFINITION. The component_frame_decoder (46_frame_decoder.md).
-/

namespace Sys2Proof.Machine

/-- The latch loaded with a header `h`, the reader standing at the first payload bit
(46_frame_decoder.md R220). -/
def State.latchHeader (h : BitString) (s : State) : State :=
  { s with
    fdTag := BitVec.ofNat 32 (uval (slice h 0 32))
    fdLen := BitVec.ofNat 32 (uval (slice h 32 32))
    fdPstart := BitVec.ofNat 32 s.rPos
    fdHvalid := true }

/-- FD_HDR (46_frame_decoder.md R220): `RES <- FD.LEN << 32 | FD.TAG`. -/
def execFdHdr (s : State) : Host.Outcome State Fault Refusal :=
  finish (commandWord .fdHdr) s <|
    match s.readBits 64 with
    | .error e => .error e
    | .ok (h, t) => .ok ((t.latchHeader h).setRes ((t.latchHeader h).fdLen ++ (t.latchHeader h).fdTag))

/-- One turn of FD_BODY's field loop on `(c, state)`: a present field is read from the wire, an absent one
takes its default (46_frame_decoder.md R221, R222). -/
def decodeField (v : BitVec 32) (i c : Nat) (s : State) : Except Raise (Nat × State) :=
  if s.present v i then
    match s.readBits (s.descriptor i).width.toNat with
    | .error e => .error e
    | .ok (b, t) =>
      .ok (c + (s.descriptor i).width.toNat,
        (t.writeFieldValue i (t.decode (s.descriptor i).kind b)).useDraw (s.descriptor i).kind)
  else .ok (c, s.writeFieldValue i (s.defaultValue i))

/-- FD_BODY's field loop over the `n` fields from `i` on, in declaration order
(46_frame_decoder.md R221). -/
def decodeFields (v : BitVec 32) : Nat → Nat → Nat → State → Except Raise (Nat × State)
  | 0, _, c, s => .ok (c, s)
  | n + 1, i, c, s =>
    match decodeField v i c s with
    | .error e => .error e
    | .ok (c', s') => decodeFields v n (i + 1) c' s'

/-- STATUS.UNDER <- 1. -/
def State.flagUnder (s : State) : State := { s with status := s.status.setUnder }

/-- STATUS.OVER <- 1. -/
def State.flagOver (s : State) : State := { s with status := s.status.setOver }

/-- `LenPolicy(c)` (46_frame_decoder.md R223). -/
def lenPolicy (c : Nat) (s : State) : Except Raise State :=
  match s.lenpol with
  | .permissive =>
    .ok (if c < s.fdLen.toNat then s.flagUnder else if c > s.fdLen.toNat then s.flagOver else s)
  | .exact => if c ≠ s.fdLen.toNat then .error (.frameConsistency s.fdLen.toNat c) else .ok s
  | .framed =>
    if c > s.fdLen.toNat then .error (.frameConsistency s.fdLen.toNat c)
    else if c < s.fdLen.toNat then
      match s.readBits (s.fdLen.toNat - c) with
      | .error e => .error e
      | .ok (_, t) => .ok t.flagUnder
    else .ok s

/-- `FD.CONSUMED <- c`. -/
def State.setConsumed (c : Nat) (s : State) : State := { s with fdConsumed := BitVec.ofNat 32 c }

/-- FD_BODY (46_frame_decoder.md R221). -/
def execFdBody (v : DataWord) (s : State) : Host.Outcome State Fault Refusal :=
  finish (commandWord (.fdBody v)) s <|
    if s.fdHvalid = false then .error .sequenceError
    else
      match decodeFields (lowWord v) s.schNf 0 0 s with
      | .error e => .error e
      | .ok (c, t) =>
        match lenPolicy c t with
        | .error e => .error e
        | .ok u => .ok (((u.setConsumed c).clearLatch).setRes (BitVec.ofNat 64 c))

/-- FD_SKIP (46_frame_decoder.md R224). -/
def execFdSkip (s : State) : Host.Outcome State Fault Refusal :=
  finish (commandWord .fdSkip) s <|
    if s.fdHvalid = false then .error .sequenceError
    else
      match s.readBits s.fdLen.toNat with
      | .error e => .error e
      | .ok (_, t) => .ok t.clearLatch

end Sys2Proof.Machine
end

