-- ==== Sys2Proof/Machine/Reader.lean ====
section
/-!
DEFINITION. The cursor_reader commands (43_cursor_reader.md).
-/

namespace Sys2Proof.Machine

/-- `b <- ReadBits(w); RES <- decK(K, b); FD.HVALID <- 0`, the shape of the R_ commands that give a value
(43_cursor_reader.md R181 to R186). -/
def readView (k : Kind) (w : Nat) (s : State) : Except Raise State :=
  match s.readBits w with
  | .error e => .error e
  | .ok (b, t) => .ok (((t.setRes (t.decode k b)).useDraw k).clearLatch)

/-- R_U16 (43_cursor_reader.md R181). -/
def execRU16 (s : State) : Host.Outcome State Fault Refusal :=
  finish (commandWord .rU16) s (readView .u16 16 s)

/-- R_U32 (43_cursor_reader.md R182). -/
def execRU32 (s : State) : Host.Outcome State Fault Refusal :=
  finish (commandWord .rU32) s (readView .u32 32 s)

/-- R_I32 (43_cursor_reader.md R183). -/
def execRI32 (s : State) : Host.Outcome State Fault Refusal :=
  finish (commandWord .rI32) s (readView .i32 32 s)

/-- R_U64 (43_cursor_reader.md R184). -/
def execRU64 (s : State) : Host.Outcome State Fault Refusal :=
  finish (commandWord .rU64) s (readView .u64 64 s)

/-- R_F32 (43_cursor_reader.md R185). -/
def execRF32 (s : State) : Host.Outcome State Fault Refusal :=
  finish (commandWord .rF32) s (readView .f32 32 s)

/-- R_NUM: the width is checked first (43_cursor_reader.md R186). -/
def execRNum (w : Imm) (s : State) : Host.Outcome State Fault Refusal :=
  finish (commandWord (.rNum w)) s <|
    match widthOperand w with
    | .error e => .error e
    | .ok n => readView .num n s

/-- R_BITS (43_cursor_reader.md R187). -/
def execRBits (rd : BsReg) (n : DataWord) (s : State) : Host.Outcome State Fault Refusal :=
  finish (commandWord (.rBits rd n)) s <|
    match s.readBits n.toNat with
    | .error e => .error e
    | .ok (b, t) => .ok ((t.writeBS rd b).clearLatch)

/-- R_SKIP (43_cursor_reader.md R188). -/
def execRSkip (n : DataWord) (s : State) : Host.Outcome State Fault Refusal :=
  finish (commandWord (.rSkip n)) s <|
    match s.readBits n.toNat with
    | .error e => .error e
    | .ok (_, t) => .ok t.clearLatch

/-- `R.SRC <- b; R.POS <- 0` (43_cursor_reader.md R190). -/
def State.loadReader (b : BitString) (s : State) : State := { s with rSrc := b, rPos := 0 }

/-- R_LOAD (43_cursor_reader.md R190). -/
def execRLoad (rs : BsReg) (s : State) : Host.Outcome State Fault Refusal :=
  finish (commandWord (.rLoad rs)) s (.ok (s.loadReader (s.readBS rs)).clearLatch)

end Sys2Proof.Machine
end

