-- ==== Sys2Proof/Machine/Schema.lean ====
section
/-!
DEFINITION. The schema and field-value commands (44_frame_schema.md).
-/

namespace Sys2Proof.Machine

/-- SCH_FD: the index is checked, then the descriptor (44_frame_schema.md R200). -/
def execSchFd (i : Imm) (d : DataWord) (s : State) : Host.Outcome State Fault Refusal :=
  finish (commandWord (.schFd i d)) s <|
    match fieldOperand i s with
    | .error e => .error e
    | .ok n =>
      match descriptorOperand d with
      | .error e => .error e
      | .ok f => .ok (s.writeDescriptor n f)

/-- SCH_DEF (44_frame_schema.md R201). -/
def execSchDef (i : Imm) (d : DataWord) (s : State) : Host.Outcome State Fault Refusal :=
  finish (commandWord (.schDef i d)) s <|
    match fieldOperand i s with
    | .error e => .error e
    | .ok n => .ok (s.writeDefault n d)

/-- FV_WR (44_frame_schema.md R202). -/
def execFvWr (i : Imm) (d : DataWord) (s : State) : Host.Outcome State Fault Refusal :=
  finish (commandWord (.fvWr i d)) s <|
    match fieldOperand i s with
    | .error e => .error e
    | .ok n => .ok (s.writeFieldValue n d)

/-- FV_RD (44_frame_schema.md R203). -/
def execFvRd (i : Imm) (s : State) : Host.Outcome State Fault Refusal :=
  finish (commandWord (.fvRd i)) s <|
    match fieldOperand i s with
    | .error e => .error e
    | .ok n => .ok (s.setRes (s.fieldValue n))

end Sys2Proof.Machine
end

