-- ==== Sys2Proof/Machine/Writer.lean ====
section
/-!
DEFINITION. The cursor_writer commands (42_cursor_writer.md).
-/

namespace Sys2Proof.Machine

/-- `b <- encK(K, D); Append(b)`, the shape of the W_ commands that take a value
(42_cursor_writer.md R161 to R166). -/
def writeView (k : Kind) (w : Nat) (d : DataWord) (s : State) : Except Raise State :=
  match s.encode none k w d with
  | .error e => .error e
  | .ok b => (s.useDraw k).append b

/-- W_U16 (42_cursor_writer.md R161). -/
def execWU16 (d : DataWord) (s : State) : Host.Outcome State Fault Refusal :=
  finish (commandWord (.wU16 d)) s (writeView .u16 16 d s)

/-- W_U32 (42_cursor_writer.md R162). -/
def execWU32 (d : DataWord) (s : State) : Host.Outcome State Fault Refusal :=
  finish (commandWord (.wU32 d)) s (writeView .u32 32 d s)

/-- W_I32 (42_cursor_writer.md R163). -/
def execWI32 (d : DataWord) (s : State) : Host.Outcome State Fault Refusal :=
  finish (commandWord (.wI32 d)) s (writeView .i32 32 d s)

/-- W_U64 (42_cursor_writer.md R164). -/
def execWU64 (d : DataWord) (s : State) : Host.Outcome State Fault Refusal :=
  finish (commandWord (.wU64 d)) s (writeView .u64 64 d s)

/-- W_F32 (42_cursor_writer.md R165). -/
def execWF32 (d : DataWord) (s : State) : Host.Outcome State Fault Refusal :=
  finish (commandWord (.wF32 d)) s (writeView .f32 32 d s)

/-- W_NUM: the width is checked first (42_cursor_writer.md R166). -/
def execWNum (w : Imm) (d : DataWord) (s : State) : Host.Outcome State Fault Refusal :=
  finish (commandWord (.wNum w d)) s <|
    match widthOperand w with
    | .error e => .error e
    | .ok n => writeView .num n d s

/-- W_BITS (42_cursor_writer.md R167). -/
def execWBits (rs : BsReg) (s : State) : Host.Outcome State Fault Refusal :=
  finish (commandWord (.wBits rs)) s (s.append (s.readBS rs))

/-- The writer emptied (42_cursor_writer.md R168). -/
def State.clearWriter (s : State) : State := { s with wBuf := [] }

/-- W_FLUSH: the buffer to `BS[RD]`, its length to RES, the buffer emptied (42_cursor_writer.md R168). -/
def execWFlush (rd : BsReg) (s : State) : Host.Outcome State Fault Refusal :=
  finish (commandWord (.wFlush rd)) s
    (.ok (((s.writeBS rd s.wBuf).setRes (BitVec.ofNat 64 s.wBuf.length)).clearWriter))

end Sys2Proof.Machine
end

