-- ==== Sys2Proof/Machine/Dispatch.lean ====
section
/-!
DEFINITION. The meaning of every command (30_encoding.md R76): one call an arm.
-/

namespace Sys2Proof.Machine

/-- The meaning of every command. -/
def exec (i : Instr) (s : State) : Host.Outcome State Fault Refusal :=
  match i with
  | .rdreg csr => Sys2Proof.Machine.execRdreg csr s
  | .wrreg csr d => Sys2Proof.Machine.execWrreg csr d s
  | .clrst => Sys2Proof.Machine.execClrst s
  | .bsText rd text => Sys2Proof.Machine.execBsText rd text s
  | .bsStr rs => Sys2Proof.Machine.execBsStr rs s
  | .isBin text => Sys2Proof.Machine.execIsBin text s
  | .bsLen rs => Sys2Proof.Machine.execBsLen rs s
  | .fromU16 rd d => Sys2Proof.Machine.execFromU16 rd d s
  | .fromU32 rd d => Sys2Proof.Machine.execFromU32 rd d s
  | .fromI32 rd d => Sys2Proof.Machine.execFromI32 rd d s
  | .fromU64 rd d => Sys2Proof.Machine.execFromU64 rd d s
  | .fromF32 rd d => Sys2Proof.Machine.execFromF32 rd d s
  | .fromNum rd w d => Sys2Proof.Machine.execFromNum rd w d s
  | .asU16 rs => Sys2Proof.Machine.execAsU16 rs s
  | .asU32 rs => Sys2Proof.Machine.execAsU32 rs s
  | .asI32 rs => Sys2Proof.Machine.execAsI32 rs s
  | .asU64 rs => Sys2Proof.Machine.execAsU64 rs s
  | .asF32 rs => Sys2Proof.Machine.execAsF32 rs s
  | .asNum rs => Sys2Proof.Machine.execAsNum rs s
  | .wU16 d => Sys2Proof.Machine.execWU16 d s
  | .wU32 d => Sys2Proof.Machine.execWU32 d s
  | .wI32 d => Sys2Proof.Machine.execWI32 d s
  | .wU64 d => Sys2Proof.Machine.execWU64 d s
  | .wF32 d => Sys2Proof.Machine.execWF32 d s
  | .wNum w d => Sys2Proof.Machine.execWNum w d s
  | .wBits rs => Sys2Proof.Machine.execWBits rs s
  | .wFlush rd => Sys2Proof.Machine.execWFlush rd s
  | .rU16 => Sys2Proof.Machine.execRU16 s
  | .rU32 => Sys2Proof.Machine.execRU32 s
  | .rI32 => Sys2Proof.Machine.execRI32 s
  | .rU64 => Sys2Proof.Machine.execRU64 s
  | .rF32 => Sys2Proof.Machine.execRF32 s
  | .rNum w => Sys2Proof.Machine.execRNum w s
  | .rBits rd n => Sys2Proof.Machine.execRBits rd n s
  | .rSkip n => Sys2Proof.Machine.execRSkip n s
  | .rLoad rs => Sys2Proof.Machine.execRLoad rs s
  | .schFd idx d => Sys2Proof.Machine.execSchFd idx d s
  | .schDef idx d => Sys2Proof.Machine.execSchDef idx d s
  | .fvWr idx d => Sys2Proof.Machine.execFvWr idx d s
  | .fvRd idx => Sys2Proof.Machine.execFvRd idx s
  | .feEnc rd v => Sys2Proof.Machine.execFeEnc rd v s
  | .fdHdr => Sys2Proof.Machine.execFdHdr s
  | .fdBody v => Sys2Proof.Machine.execFdBody v s
  | .fdSkip => Sys2Proof.Machine.execFdSkip s

end Sys2Proof.Machine
end

