-- ==== Sys2Proof/Machine/HostPort.lean ====
section
/-!
DEFINITION. The host port: what the block finds there, how it takes a transaction, what an illegal command
word and reset do (30_encoding.md R70, R79; 60_exceptions.md R267, R272; 70_reset_and_hazards.md R300).
-/

namespace Sys2Proof.Machine

/-- What the block finds on the host port. -/
inductive Poll where
  /-- Nothing to run: no event, or a transaction whose text has not arrived (assumption log 6). -/
  | wait
  /-- Reset is applied. -/
  | reset (rest : List HostEvent)
  /-- A whole transaction. -/
  | run (t : Transaction) (rest : List HostEvent)
  deriving DecidableEq, Repr

/-- The transaction with exactly the text bytes its command word announces, once they are there
(30_encoding.md R70, R79; assumption log 7). -/
def takeText (t : Transaction) : Option Transaction :=
  if textLen t.cw ≤ t.text.length then some { t with text := t.text.take (textLen t.cw) } else none

/-- The next thing on the port. A transaction in progress when reset is applied is abandoned
(70_reset_and_hazards.md R300; assumption log 8). -/
def poll : List HostEvent → Poll
  | [] => .wait
  | .reset :: rest => .reset rest
  | .transaction t :: rest =>
    match takeText t with
    | some whole => .run whole rest
    | none =>
      match rest with
      | .reset :: rest' => .reset rest'
      | _ => .wait

/-- The events left on the port after one is taken. -/
def State.setHostIn (rest : List HostEvent) (s : State) : State := { s with hostIn := rest }

/-- Reset (70_reset_and_hazards.md R300, R301): every piece of the spec's state at its reset value, the
parameters kept. The responses already given stay given, the events to come stay to come, and the draw counter
runs on, so that draws stay independent (assumption logs 2, 3, 5). -/
def State.applyReset (rest : List HostEvent) (s : State) : State :=
  { State.resetWith s.params with
    nanDraws := s.nanDraws
    hostIn := rest
    hostOut := s.hostOut }

/-- A transaction whose word is no command: IllegalCommand (30_encoding.md R77, 60_exceptions.md R267). -/
def execIllegal (cw : CommandWord) (s : State) : Host.Outcome State Fault Refusal :=
  finish cw s (.error .illegalCommand)

/-- A transaction placed as the next event of the port. -/
def State.pushTransaction (t : Transaction) (s : State) : State :=
  { s with hostIn := .transaction t :: s.hostIn }

end Sys2Proof.Machine
end

