-- ==== Sys2Proof/Machine/Step.lean ====
section
/-!
DEFINITION. One step of the block: it takes what the host port holds.
-/

namespace Sys2Proof.Machine

/-- One step: one transaction, or reset, or waiting for the host (10_state.md R20, R22;
70_reset_and_hazards.md R302, R315). -/
def step (s : State) : Host.Outcome State Fault Refusal :=
  match poll s.hostIn with
  | .wait => .next s
  | .reset rest => .next (s.applyReset rest)
  | .run t rest =>
    match decode t with
    | .ok i => exec i (s.setHostIn rest)
    | .error _ => execIllegal t.cw (s.setHostIn rest)

/-- The instruction of the bits `w` placed where the next step takes its transaction: at the head of the
host port (assumption logs 2, 9). -/
def State.withFetchWord (s : State) (nbits w : Nat) : State :=
  s.pushTransaction (tableTransaction nbits w)

end Sys2Proof.Machine
end

