-- ==== Sys2Proof/Safety.lean ====
section
/-!
DEFINITION. What a good state of the block is: the invariants spec/ states of its storage.
-/

namespace Sys2Proof.Machine

/-- STATUS agrees with itself and with the fault record: ERR is set exactly when a cause is held, and
without a fault the record is 0 (10_state.md R34, R37; 60_exceptions.md R271). -/
structure FaultRecordOk (s : State) : Prop where
  fcause : s.status.err = s.status.fcause.isSome
  lcause : s.status.err = s.status.lcause.isSome
  clean : s.status.err = false → s.faultCmd = 0 ∧ s.faultInfo = 0

/-- The invariants of the block's storage. -/
structure State.Inv (s : State) : Prop where
  /-- The parameters are legal (00_scope.md R7). -/
  params : s.params.Valid
  /-- No BitString register is longer than CAP_BITS (10_state.md R23). -/
  bsCap : ∀ r : BsReg, (s.readBS r).length ≤ s.params.capBits
  /-- Nor is the writer's buffer (10_state.md R25). -/
  wCap : s.wBuf.length ≤ s.params.capBits
  /-- Nor is the reader's source (10_state.md R26). -/
  rCap : s.rSrc.length ≤ s.params.capBits
  /-- The position is within the source (10_state.md R26). -/
  pos : s.rPos ≤ s.rSrc.length
  /-- A latched header has the reader at its payload start (10_state.md R29). -/
  latch : s.fdHvalid = true → s.rPos = s.fdPstart.toNat ∧ 64 ≤ s.fdPstart.toNat
  /-- The schema has at most MAX_FIELDS fields (10_state.md R30). -/
  nf : s.schNf ≤ s.params.maxFields
  /-- There are MAX_FIELDS descriptors (10_state.md R30). -/
  fdCount : s.schFd.length = s.params.maxFields
  /-- There are MAX_FIELDS defaults (10_state.md R30). -/
  defCount : s.schDef.length = s.params.maxFields
  /-- There are MAX_FIELDS field values (10_state.md R32). -/
  fvCount : s.fv.length = s.params.maxFields
  /-- Every stored descriptor is well formed (10_state.md R31). -/
  descriptors : ∀ i : Nat, (s.descriptor i).wf = true
  /-- The fault record is consistent (10_state.md R34, R37). -/
  record : FaultRecordOk s

/-- A safe run keeps going: from a good state, a step gives a good state (60_exceptions.md R276: the block
accepts the next command after a fault exactly as after a success). -/
def State.SafeStep (s : State) : Prop := ∃ t, step s = .next t ∧ t.Inv

end Sys2Proof.Machine
end

