-- ==== Sys2Proof/Certificates/Slice0/Vocabulary.lean ====
section
/-!
DEFINITION. The words the obligations are written in: the tables of spec/ written out a second time, apart from the
model's own definitions, and the shapes of a completed and of a faulted command.
-/

namespace Sys2Proof.Spec

open Sys2Proof.Machine

/-! ### The opcode table (30_encoding.md R76) -/

/-- The mnemonics of 30_encoding.md R76, letter for letter. -/
inductive Mnemonic where
  | RDREG | WRREG | CLRST | BS_TEXT | BS_STR | IS_BIN | BS_LEN | FROM_U16 | FROM_U32 | FROM_I32
  | FROM_U64 | FROM_F32 | FROM_NUM | AS_U16 | AS_U32 | AS_I32 | AS_U64 | AS_F32 | AS_NUM
  | W_U16 | W_U32 | W_I32 | W_U64 | W_F32 | W_NUM | W_BITS | W_FLUSH | R_U16 | R_U32 | R_I32
  | R_U64 | R_F32 | R_NUM | R_BITS | R_SKIP | R_LOAD | SCH_FD | SCH_DEF | FV_WR | FV_RD
  | FE_ENC | FD_HDR | FD_BODY | FD_SKIP
  deriving DecidableEq, Repr

/-- The control and text rows of 30_encoding.md R76: mnemonic, match, mask. -/
def controlRows : List (Mnemonic × CommandWord × CommandWord) :=
  [(.RDREG, 0x01000000, 0xFFFF0000),
   (.WRREG, 0x02000000, 0xFFFF0000),
   (.CLRST, 0x03000000, 0xFFFFFFFF),
   (.BS_TEXT, 0x10000000, 0xFF0F0000),
   (.BS_STR, 0x11000000, 0xFFF0FFFF),
   (.IS_BIN, 0x12000000, 0xFFFF0000),
   (.BS_LEN, 0x13000000, 0xFFF0FFFF)]

/-- The codec rows of 30_encoding.md R76. -/
def codecRows : List (Mnemonic × CommandWord × CommandWord) :=
  [(.FROM_U16, 0x20000000, 0xFF0FFFFF),
   (.FROM_U32, 0x21000000, 0xFF0FFFFF),
   (.FROM_I32, 0x22000000, 0xFF0FFFFF),
   (.FROM_U64, 0x23000000, 0xFF0FFFFF),
   (.FROM_F32, 0x24000000, 0xFF0FFFFF),
   (.FROM_NUM, 0x25000000, 0xFF0F0000),
   (.AS_U16, 0x30000000, 0xFFF0FFFF),
   (.AS_U32, 0x31000000, 0xFFF0FFFF),
   (.AS_I32, 0x32000000, 0xFFF0FFFF),
   (.AS_U64, 0x33000000, 0xFFF0FFFF),
   (.AS_F32, 0x34000000, 0xFFF0FFFF),
   (.AS_NUM, 0x35000000, 0xFFF0FFFF)]

/-- The writer and reader rows of 30_encoding.md R76. -/
def cursorRows : List (Mnemonic × CommandWord × CommandWord) :=
  [(.W_U16, 0x40000000, 0xFFFFFFFF),
   (.W_U32, 0x41000000, 0xFFFFFFFF),
   (.W_I32, 0x42000000, 0xFFFFFFFF),
   (.W_U64, 0x43000000, 0xFFFFFFFF),
   (.W_F32, 0x44000000, 0xFFFFFFFF),
   (.W_NUM, 0x45000000, 0xFFFF0000),
   (.W_BITS, 0x46000000, 0xFFF0FFFF),
   (.W_FLUSH, 0x47000000, 0xFF0FFFFF),
   (.R_U16, 0x50000000, 0xFFFFFFFF),
   (.R_U32, 0x51000000, 0xFFFFFFFF),
   (.R_I32, 0x52000000, 0xFFFFFFFF),
   (.R_U64, 0x53000000, 0xFFFFFFFF),
   (.R_F32, 0x54000000, 0xFFFFFFFF),
   (.R_NUM, 0x55000000, 0xFFFF0000),
   (.R_BITS, 0x56000000, 0xFF0FFFFF),
   (.R_SKIP, 0x57000000, 0xFFFFFFFF),
   (.R_LOAD, 0x58000000, 0xFFF0FFFF)]

/-- The schema and frame rows of 30_encoding.md R76. -/
def frameRows : List (Mnemonic × CommandWord × CommandWord) :=
  [(.SCH_FD, 0x60000000, 0xFFFF0000),
   (.SCH_DEF, 0x61000000, 0xFFFF0000),
   (.FV_WR, 0x62000000, 0xFFFF0000),
   (.FV_RD, 0x63000000, 0xFFFF0000),
   (.FE_ENC, 0x64000000, 0xFF0FFFFF),
   (.FD_HDR, 0x65000000, 0xFFFFFFFF),
   (.FD_BODY, 0x66000000, 0xFFFFFFFF),
   (.FD_SKIP, 0x67000000, 0xFFFFFFFF)]

/-- The 44 rows of 30_encoding.md R76: mnemonic, match, mask. -/
def opcodeRows : List (Mnemonic × CommandWord × CommandWord) :=
  controlRows ++ codecRows ++ cursorRows ++ frameRows

/-- The mnemonic of a command. -/
def mnemonic : Instr → Mnemonic
  | .rdreg _ => .RDREG
  | .wrreg _ _ => .WRREG
  | .clrst => .CLRST
  | .bsText _ _ => .BS_TEXT
  | .bsStr _ => .BS_STR
  | .isBin _ => .IS_BIN
  | .bsLen _ => .BS_LEN
  | .fromU16 _ _ => .FROM_U16
  | .fromU32 _ _ => .FROM_U32
  | .fromI32 _ _ => .FROM_I32
  | .fromU64 _ _ => .FROM_U64
  | .fromF32 _ _ => .FROM_F32
  | .fromNum _ _ _ => .FROM_NUM
  | .asU16 _ => .AS_U16
  | .asU32 _ => .AS_U32
  | .asI32 _ => .AS_I32
  | .asU64 _ => .AS_U64
  | .asF32 _ => .AS_F32
  | .asNum _ => .AS_NUM
  | .wU16 _ => .W_U16
  | .wU32 _ => .W_U32
  | .wI32 _ => .W_I32
  | .wU64 _ => .W_U64
  | .wF32 _ => .W_F32
  | .wNum _ _ => .W_NUM
  | .wBits _ => .W_BITS
  | .wFlush _ => .W_FLUSH
  | .rU16 => .R_U16
  | .rU32 => .R_U32
  | .rI32 => .R_I32
  | .rU64 => .R_U64
  | .rF32 => .R_F32
  | .rNum _ => .R_NUM
  | .rBits _ _ => .R_BITS
  | .rSkip _ => .R_SKIP
  | .rLoad _ => .R_LOAD
  | .schFd _ _ => .SCH_FD
  | .schDef _ _ => .SCH_DEF
  | .fvWr _ _ => .FV_WR
  | .fvRd _ => .FV_RD
  | .feEnc _ _ => .FE_ENC
  | .fdHdr => .FD_HDR
  | .fdBody _ => .FD_BODY
  | .fdSkip => .FD_SKIP

/-- The commands that clear FD.HVALID when they complete (10_state.md R29, 43_cursor_reader.md R189,
46_frame_decoder.md R221, R224). -/
def latchClearing : List Mnemonic :=
  [.R_U16, .R_U32, .R_I32, .R_U64, .R_F32, .R_NUM, .R_BITS, .R_SKIP, .R_LOAD, .FD_BODY, .FD_SKIP]

/-! ### Completed and faulted commands -/

/-- The state with the response of a command that completes added: FAULT = 0, CAUSE = 0, RES after the command,
and the text (60_exceptions.md R272; the response log is the model's, assumption log 3). -/
def answered (t : State) (text : List Byte) : State :=
  { t with hostOut := t.hostOut ++ [{ fault := false, cause := none, res := t.res, text := text }] }

/-- The state after a fault of cause `c` with information word `info`: the fault record of 60_exceptions.md R271
and the response of R272 (assumption log 3). -/
def faulted (s : State) (cw : CommandWord) (c : Cause) (info : DataWord) : State :=
  { s with
    status :=
      { err := true
        underrun := s.status.underrun
        overrun := s.status.overrun
        fcause := if s.status.fcause = none then some c else s.status.fcause
        lcause := some c }
    faultCmd := cw
    faultInfo := info
    hostOut := s.hostOut ++ [{ fault := true, cause := some c, res := s.res, text := [] }] }

/-- `hi << 32 | lo` as an information word. -/
def infoPair (hi lo : Nat) : DataWord := BitVec.ofNat 64 (hi * 2 ^ 32 + lo)

/-- The state with `BS[r]` replaced. -/
def withBS (s : State) (r : BsReg) (b : BitString) : State :=
  { s with bs := s.bs.set r.toNat b r.isLt }

/-! ### Values -/

/-- A NaN pattern: biased exponent 0xFF, nonzero mantissa (41_numeric_codec.md R131). -/
def NaNPattern (f : BitVec 32) : Prop := f.toNat / 2 ^ 23 % 2 ^ 8 = 0xFF ∧ f.toNat % 2 ^ 23 ≠ 0

/-- What an f32 pattern may become when it is packed or unpacked: itself, or some NaN pattern for a NaN
(41_numeric_codec.md R130 to R132). -/
def F32Image (f g : BitVec 32) : Prop := (NaNPattern f → NaNPattern g) ∧ (¬NaNPattern f → g = f)

/-- The values `enc_i32(·, off)` accepts (41_numeric_codec.md R124). -/
def I32Encodable (v : Int) (off : Nat) : Prop :=
  (0 ≤ v ∧ v ≤ 2 ^ 31 - 1) ∨ (v < 0 ∧ 0 ≤ v + off ∧ v + off ≤ 2 ^ 31 - 1)

/-- `enc_i32(v, off)` for a value it accepts (41_numeric_codec.md R124). -/
def i32Bits (v : Int) (off : Nat) : BitString :=
  if 0 ≤ v then true :: bitsOf 31 v.toNat else false :: bitsOf 31 (v + off).toNat

/-- `dec_i32(b, off)` (41_numeric_codec.md R125). -/
def i32Value (b : BitString) (off : Nat) : Int :=
  if b.head? = some true then (uval (b.drop 1) : Int) else (uval (b.drop 1) : Int) - off

/-- `enc_u64(v)` (41_numeric_codec.md R128). -/
def u64Bits (v : Nat) : BitString := bitsOf 32 (v % 2 ^ 32) ++ bitsOf 32 (v / 2 ^ 32 % 2 ^ 32)

/-- `dec_u64(b)` (41_numeric_codec.md R129). -/
def u64Value (b : BitString) : Nat := uval (b.drop 32) * 2 ^ 32 + uval (b.take 32)

/-- The width of a kind's field, `w` for NUM (41_numeric_codec.md R121). -/
def widthOf (k : Kind) (w : Nat) : Nat :=
  match k with
  | .u16 => 16
  | .u32 => 32
  | .i32 => 32
  | .u64 => 64
  | .f32 => 32
  | .num => w

/-- The host word of the value a host word stands for: an f32 value is its low 32 bits
(41_numeric_codec.md R121). -/
def hostValue (k : Kind) (x : DataWord) : DataWord :=
  match k with
  | .f32 => BitVec.ofNat 64 (x.toNat % 2 ^ 32)
  | .u16 => x
  | .u32 => x
  | .i32 => x
  | .u64 => x
  | .num => x

/-- `x[31:0]`. -/
def low32 (x : DataWord) : BitVec 32 := BitVec.ofNat 32 x.toNat

/-- The host word `x` is encodable as a kind, `w` the width of a NUM, under offset `off`
(41_numeric_codec.md R121). -/
def Fits (k : Kind) (w : Nat) (x : DataWord) (off : Nat) : Prop :=
  match k with
  | .u16 => x.toNat < 2 ^ 16
  | .u32 => x.toNat < 2 ^ 32
  | .i32 => I32Encodable x.toInt off
  | .u64 => True
  | .f32 => True
  | .num => x.toNat < 2 ^ w

/-- The width a RangeError names: 31 for an i32 (60_exceptions.md R270). -/
def rangeWidth (k : Kind) (w : Nat) : Nat :=
  match k with
  | .u16 => 16
  | .u32 => 32
  | .i32 => 31
  | .u64 => 64
  | .f32 => 32
  | .num => w

/-- `b` is an encoding of the host word `x` (41_numeric_codec.md R136); an f32 NaN has several. -/
def BitsFor (k : Kind) (w : Nat) (x : DataWord) (off : Nat) (b : BitString) : Prop :=
  match k with
  | .u16 => b = bitsOf 16 x.toNat
  | .u32 => b = bitsOf 32 x.toNat
  | .i32 => b = i32Bits x.toInt off
  | .u64 => b = u64Bits x.toNat
  | .f32 => ∃ g, F32Image (low32 x) g ∧ b = bitsOf 32 g.toNat
  | .num => b = bitsOf w x.toNat

/-- The host word `x` is a decoding of the digits `b` as a field of kind `k` under offset `off`
(41_numeric_codec.md R136); an f32 NaN has several. -/
def DecodesTo (k : Kind) (off : Nat) (b : BitString) (x : DataWord) : Prop :=
  match k with
  | .u16 => x = BitVec.ofNat 64 (uval b)
  | .u32 => x = BitVec.ofNat 64 (uval b)
  | .i32 => x = BitVec.ofInt 64 (i32Value b off)
  | .u64 => x = BitVec.ofNat 64 (u64Value b)
  | .f32 => ∃ g, F32Image (BitVec.ofNat 32 (uval b)) g ∧ x = BitVec.ofNat 64 g.toNat
  | .num => x = BitVec.ofNat 64 (uval b)

/-- How many free draws a conversion of a kind uses (the model's own counter, assumption log 4). -/
def drawCount (k : Kind) : Nat := if k = .f32 then 1 else 0

/-! ### The commands of a kind (30_encoding.md R75: one order in the codec, writer and reader groups) -/

/-- FROM_U16, FROM_U32, FROM_I32, FROM_U64, FROM_F32 and, with width `w`, FROM_NUM. -/
def fromCommand (k : Kind) (rd : BsReg) (w : Imm) (d : DataWord) : Instr :=
  match k with
  | .u16 => .fromU16 rd d
  | .u32 => .fromU32 rd d
  | .i32 => .fromI32 rd d
  | .u64 => .fromU64 rd d
  | .f32 => .fromF32 rd d
  | .num => .fromNum rd w d

/-- AS_U16, AS_U32, AS_I32, AS_U64, AS_F32 and AS_NUM. -/
def asCommand (k : Kind) (rs : BsReg) : Instr :=
  match k with
  | .u16 => .asU16 rs
  | .u32 => .asU32 rs
  | .i32 => .asI32 rs
  | .u64 => .asU64 rs
  | .f32 => .asF32 rs
  | .num => .asNum rs

/-- W_U16, W_U32, W_I32, W_U64, W_F32 and, with width `w`, W_NUM. -/
def writeCommand (k : Kind) (w : Imm) (d : DataWord) : Instr :=
  match k with
  | .u16 => .wU16 d
  | .u32 => .wU32 d
  | .i32 => .wI32 d
  | .u64 => .wU64 d
  | .f32 => .wF32 d
  | .num => .wNum w d

/-- R_U16, R_U32, R_I32, R_U64, R_F32 and, with width `w`, R_NUM. -/
def readCommand (k : Kind) (w : Imm) : Instr :=
  match k with
  | .u16 => .rU16
  | .u32 => .rU32
  | .i32 => .rI32
  | .u64 => .rU64
  | .f32 => .rF32
  | .num => .rNum w

/-- A NUM command's width is in range (30_encoding.md R74); the other kinds have no width operand. -/
def WidthOk (k : Kind) (w : Imm) : Prop := k = .num → 1 ≤ w.toNat ∧ w.toNat ≤ 64

/-- The length an AS_ command requires (41_numeric_codec.md R135). -/
def LengthOk (k : Kind) (n : Nat) : Prop :=
  if k = .num then 1 ≤ n ∧ n ≤ 64 else n = widthOf k 0

/-! ### CSRs (10_state.md R33) -/

/-- A cause's code (60_exceptions.md R260), 0 for none. -/
def causeNumber : Option Cause → Nat
  | none => 0
  | some .invalidCharacter => 1
  | some .lengthMismatch => 2
  | some .readOverrun => 3
  | some .frameConsistency => 4
  | some .rangeError => 5
  | some .bufferOverflow => 6
  | some .illegalCommand => 7
  | some .illegalOperand => 8
  | some .sequenceError => 9

/-- STATUS as a number (10_state.md R34). -/
def statusNumber (st : Status) : Nat :=
  st.err.toNat + 2 * st.underrun.toNat + 4 * st.overrun.toNat + 16 * causeNumber st.fcause +
    256 * causeNumber st.lcause

/-- A kind's code (10_state.md R38). -/
def kindNumber : Kind → Nat
  | .u16 => 0
  | .u32 => 1
  | .i32 => 2
  | .u64 => 3
  | .f32 => 4
  | .num => 5

/-- A packed descriptor as a number (10_state.md R38). -/
def descriptorNumber (d : Descriptor) : Nat :=
  d.width.toNat + 2 ^ 8 * kindNumber d.kind + 2 ^ 32 * d.ver.toNat

/-- A length policy's code (10_state.md R36). -/
def policyNumber : LenPolicy → Nat
  | .permissive => 0
  | .exact => 1
  | .framed => 2

/-- The table of 10_state.md R33: what RDREG reads at an address, `none` where it is unmapped. -/
def csrNumber (s : State) (a : Nat) : Option Nat :=
  if a = 0x000 then some (statusNumber s.status)
  else if a = 0x001 then some s.i32Offset.toNat
  else if a = 0x002 then some (policyNumber s.lenpol)
  else if a = 0x003 then some (s.rPos % 2 ^ 32)
  else if a = 0x004 then some (s.rSrc.length % 2 ^ 32)
  else if a = 0x005 then some (s.wBuf.length % 2 ^ 32)
  else if a = 0x006 then some s.fdTag.toNat
  else if a = 0x007 then some s.fdLen.toNat
  else if a = 0x008 then some s.fdPstart.toNat
  else if a = 0x009 then some s.fdHvalid.toNat
  else if a = 0x00A then some s.fdConsumed.toNat
  else if a = 0x00B then some s.schTag.toNat
  else if a = 0x00C then some (s.schNf % 2 ^ 9)
  else if a = 0x00D then some (s.params.capBits % 2 ^ 32)
  else if a = 0x00E then some (s.params.maxFields % 2 ^ 9)
  else if a = 0x00F then some 16
  else if a = 0x010 then some s.faultCmd.toNat
  else if a = 0x011 then some s.faultInfo.toNat
  else if 0x100 ≤ a ∧ a < 0x100 + s.params.maxFields then
    some (descriptorNumber (s.descriptor (a - 0x100)))
  else if 0x200 ≤ a ∧ a < 0x200 + s.params.maxFields then some (s.defaultValue (a - 0x200)).toNat
  else none

/-! ### Schemas and frames -/

/-- Field `i` is present at version `v` (44_frame_schema.md R204), for `i < SCH.NF`. -/
def Present (s : State) (v : BitVec 32) (i : Nat) : Prop := (s.descriptor i).ver.toNat ≤ v.toNat

/-- The bits the present fields before field `i` take on the wire. -/
def offsetOf (s : State) (v : BitVec 32) : Nat → Nat
  | 0 => 0
  | i + 1 =>
    if (s.descriptor i).ver.toNat ≤ v.toNat then offsetOf s v i + (s.descriptor i).width.toNat
    else offsetOf s v i

/-- The payload bits of all the present fields: what a walk at version `v` takes. -/
def payloadLength (s : State) (v : BitVec 32) : Nat := offsetOf s v s.schNf

/-- Field `i`'s value fits its kind and width. -/
def FieldFits (s : State) (i : Nat) : Prop :=
  Fits (s.descriptor i).kind (s.descriptor i).width.toNat (s.fieldValue i) s.i32Offset.toNat

/-- The value of field `i` is no f32 NaN. -/
def FieldNotNaN (s : State) (i : Nat) : Prop :=
  (s.descriptor i).kind = .f32 → ¬NaNPattern (low32 (s.fieldValue i))

/-- `b` is an encoding of the value of field `i`. -/
def FieldBits (s : State) (i : Nat) (b : BitString) : Prop :=
  BitsFor (s.descriptor i).kind (s.descriptor i).width.toNat (s.fieldValue i) s.i32Offset.toNat b

/-- The state with the descriptor, the default and the value of field `j` replaced (10_state.md R30, R32). -/
def withField (s : State) (j : Nat) (f : Descriptor) (dflt value : DataWord) : State :=
  { s with schFd := s.schFd.set j f, schDef := s.schDef.set j dflt, fv := s.fv.set j value }

/-- A schema is monotone (44_frame_schema.md R205). -/
def Monotone (s : State) : Prop :=
  ∀ i, i + 1 < s.schNf → (s.descriptor i).ver.toNat ≤ (s.descriptor (i + 1)).ver.toNat

end Sys2Proof.Spec
end

