-- ==== Sys2Proof/Certificates/Slice0/Obligations.lean ====
section
/-!
DEFINITION. The statements for the provers, each formalising what spec/ says of the block.
-/

open Sys2Proof Sys2Proof.Machine Sys2Proof.Spec

/-! ### Encoding -/

/-- Decode and encode agree, one way: every well-formed command's transaction decodes to it
(30_encoding.md R71, R76, R80). -/
def Obligations.DecodeInvertsEncode : Prop :=
  ∀ i : Instr, i.wf = true → decode (encode i) = .ok i

/-- Decode and encode agree, the other way: what decodes is well formed and encodes to the same command word
and text (30_encoding.md R72, R76). -/
def Obligations.EncodeInvertsDecode : Prop :=
  ∀ (t : Transaction) (i : Instr), decode t = .ok i →
    i.wf = true ∧ commandWord i = t.cw ∧ (encode i).text = t.text

/-- A word is the command of a row exactly when `CW AND mask = match` (30_encoding.md R76). -/
def Obligations.DecoderFollowsOpcodeTable : Prop :=
  ∀ (t : Transaction) (row : Mnemonic × CommandWord × CommandWord), row ∈ opcodeRows →
    t.text.length = textLen t.cw →
    (t.cw &&& row.2.2 = row.2.1 ↔ ∃ i, decode t = .ok i ∧ mnemonic i = row.1)

/-- The four fields of the command word are at bits 31:24, 23:20, 19:16 and 15:0 (30_encoding.md R71), and
`CW = OP<<24 | RD<<20 | RS<<16 | IMM` (R80). -/
def Obligations.CommandWordFieldPositions : Prop :=
  (∀ cw : CommandWord,
    (opField cw).toNat = cw.toNat / 2 ^ 24 ∧ (rdField cw).toNat = cw.toNat / 2 ^ 20 % 2 ^ 4 ∧
    (rsField cw).toNat = cw.toNat / 2 ^ 16 % 2 ^ 4 ∧ (immField cw).toNat = cw.toNat % 2 ^ 16) ∧
  ∀ (op : BitVec 8) (rd rs : BsReg) (imm : Imm),
    (assemble op rd rs imm).toNat =
      op.toNat * 2 ^ 24 + rd.toNat * 2 ^ 20 + rs.toNat * 2 ^ 16 + imm.toNat

/-- A word that matches no row is illegal: the transaction, text included, is taken and raises
IllegalCommand (30_encoding.md R77; 60_exceptions.md R267, R271, R272).
The model's choices: the queue the transaction is taken from and the log the response goes to (assumption logs 2, 3),
and that text bytes beyond those the word announces are dropped with the transaction (assumption log 7). -/
def Obligations.IllegalWordsRaiseIllegalCommand : Prop :=
  ∀ (s : State) (t : Transaction) (rest : List HostEvent),
    s.hostIn = .transaction t :: rest → textLen t.cw ≤ t.text.length →
    (∀ row ∈ opcodeRows, t.cw &&& row.2.2 ≠ row.2.1) →
    step s = .next (faulted { s with hostIn := rest } t.cw .illegalCommand 0)

/-- Words written out from 30_encoding.md R80, R81 and 95_test_vectors.md decode to the commands they stand
for. -/
def Obligations.WrittenOutWordsDecode : Prop :=
  decode ⟨0x2530000C, 0xABC, []⟩ = .ok (.fromNum 3 12 0xABC) ∧
  decode ⟨0x0200000B, 0xBEEF, []⟩ = .ok (.wrreg 0xB 0xBEEF) ∧
  decode ⟨0x10000004, 0, [0x30, 0x31, 0x30, 0x31]⟩ =
    .ok (.bsText 0 [0x30, 0x31, 0x30, 0x31]) ∧
  decode ⟨0x32020000, 0, []⟩ = .ok (.asI32 2) ∧
  decode ⟨0x47300000, 0, []⟩ = .ok (.wFlush 3) ∧
  decode ⟨0x58030000, 0, []⟩ = .ok (.rLoad 3) ∧
  decode ⟨0x60000002, 0x0000000300000120, []⟩ = .ok (.schFd 2 0x0000000300000120) ∧
  decode ⟨0x64400000, 3, []⟩ = .ok (.feEnc 4 3) ∧
  decode ⟨0x66000000, 2, []⟩ = .ok (.fdBody 2) ∧
  decode ⟨0x35010001, 0, []⟩ = .error (.reservedField 0x35) ∧
  decode ⟨0x00000000, 0, []⟩ = .error (.unassignedOpcode 0x00)

/-! ### Steps -/

/-- A step runs the decoded command: a transaction at the head of the port whose text has arrived is taken,
exactly the announced bytes of text with it, and the command it decodes to is executed on the state without it
(30_encoding.md R70, R79; 10_state.md R22).
The model's choices: the queue the transaction is taken from (assumption log 2), and that text bytes beyond the
announced ones are dropped with the transaction (assumption log 7). -/
def Obligations.StepRunsTheDecodedCommand : Prop :=
  ∀ (s : State) (t : Transaction) (rest : List HostEvent) (i : Instr),
    s.hostIn = .transaction t :: rest → textLen t.cw ≤ t.text.length →
    decode { t with text := t.text.take (textLen t.cw) } = .ok i →
    i.wf = true ∧ step s = exec i { s with hostIn := rest }

/-- The model's choice (assumption log 6): while the host sends nothing, or not all of a text, the block
waits, unchanged (70_reset_and_hazards.md R302; 60_exceptions.md R283). -/
def Obligations.WaitsWhileTheHostIsSilent : Prop :=
  (∀ s : State, s.hostIn = [] → step s = .next s) ∧
  ∀ (s : State) (t : Transaction), s.hostIn = [.transaction t] → t.text.length < textLen t.cw →
    step s = .next s

/-- After reset every piece of state holds the value of 10_state.md R42, in the default instance and in every
other. -/
def Obligations.ResetStateIsTheResetTable : Prop :=
  State.reset.params.capBits = 65536 ∧ State.reset.params.maxFields = 32 ∧
  State.reset = State.resetWith State.reset.params ∧
  ∀ p : Params,
    (∀ r : BsReg, (State.resetWith p).readBS r = []) ∧ (State.resetWith p).wBuf = [] ∧
    (State.resetWith p).rSrc = [] ∧ (State.resetWith p).rPos = 0 ∧ (State.resetWith p).res = 0 ∧
    (State.resetWith p).fdTag = 0 ∧ (State.resetWith p).fdLen = 0 ∧
    (State.resetWith p).fdPstart = 0 ∧ (State.resetWith p).fdConsumed = 0 ∧
    (State.resetWith p).fdHvalid = false ∧ (State.resetWith p).schTag = 0 ∧
    (State.resetWith p).schNf = 0 ∧
    (∀ i : Nat, (State.resetWith p).descriptor i = { kind := .u16, width := 16, ver := 0 }) ∧
    (∀ i : Nat, (State.resetWith p).defaultValue i = 0) ∧
    (∀ i : Nat, (State.resetWith p).fieldValue i = 0) ∧
    (State.resetWith p).i32Offset = 0x80000000 ∧ (State.resetWith p).lenpol = .framed ∧
    statusNumber (State.resetWith p).status = 0 ∧ (State.resetWith p).faultCmd = 0 ∧
    (State.resetWith p).faultInfo = 0

/-- Reset, between transactions or with one in progress, sets everything the spec names to its reset value,
keeps the parameters, and answers nothing (70_reset_and_hazards.md R300, R301).
The model's choices: reset as an event of the host's queue (assumption logs 2, 8), the response log it keeps
(assumption log 3), and the draw counter, which runs on (assumption log 5). -/
def Obligations.ResetSetsEverythingAndAnswersNothing : Prop :=
  ∀ (s : State) (rest : List HostEvent),
    (s.hostIn = .reset :: rest ∨
      ∃ t, s.hostIn = .transaction t :: .reset :: rest ∧ t.text.length < textLen t.cw) →
    step s = .next
      { State.resetWith s.params with
        nanDraws := s.nanDraws
        hostIn := rest
        hostOut := s.hostOut }

/-- No step stops the block: it accepts the next command after a fault exactly as after a success
(60_exceptions.md R276). -/
def Obligations.NoStepStopsTheBlock : Prop := ∀ s : State, ∃ t, step s = .next t

/-! ### Faults -/

/-- Every command gets exactly one response, and a command that answers FAULT = 1, an illegal word too, has set the
fault record and changed nothing else (60_exceptions.md R271, R272).
The model's choice: the log that the responses are added to (assumption log 3). -/
def Obligations.FaultsChangeOnlyTheFaultRecord : Prop :=
  (∀ (i : Instr) (s : State), ∃ t, exec i s = .next t ∧
    ((∃ text, t.hostOut = s.hostOut ++ [⟨false, none, t.res, text⟩]) ∨
      ∃ c info, t = faulted s (commandWord i) c info)) ∧
  ∀ (cw : CommandWord) (s : State), execIllegal cw s = .next (faulted s cw .illegalCommand 0)

/-- A command that completes leaves the fault record as it was, but for CLRST (60_exceptions.md R271; 47_control.md
R242; 10_state.md R34, R37). -/
def Obligations.CompletedCommandsKeepTheFaultRecord : Prop :=
  ∀ (i : Instr) (s t : State) (text : List Byte), exec i s = .next t → i ≠ .clrst →
    t.hostOut = s.hostOut ++ [⟨false, none, t.res, text⟩] →
    t.status.err = s.status.err ∧ t.status.fcause = s.status.fcause ∧
    t.status.lcause = s.status.lcause ∧ t.faultCmd = s.faultCmd ∧ t.faultInfo = s.faultInfo

/-- The commands that raise a cause are among those 60_exceptions.md R260 lists for it. -/
def Obligations.OnlyTheListedCommandsRaiseACause : Prop :=
  ∀ (i : Instr) (s t : State) (c : Cause) (info : DataWord), exec i s = .next t →
    t = faulted s (commandWord i) c info →
    match c with
    | .invalidCharacter => mnemonic i = .BS_TEXT
    | .lengthMismatch =>
      mnemonic i ∈ [.AS_U16, .AS_U32, .AS_I32, .AS_U64, .AS_F32, .AS_NUM]
    | .readOverrun =>
      mnemonic i ∈ [.R_U16, .R_U32, .R_I32, .R_U64, .R_F32, .R_NUM, .R_BITS, .R_SKIP,
        .FD_HDR, .FD_BODY, .FD_SKIP]
    | .frameConsistency => mnemonic i = .FD_BODY
    | .rangeError =>
      mnemonic i ∈ [.FROM_U16, .FROM_U32, .FROM_I32, .FROM_NUM, .W_U16, .W_U32, .W_I32,
        .W_NUM, .FE_ENC]
    | .bufferOverflow =>
      mnemonic i ∈ [.BS_TEXT, .W_U16, .W_U32, .W_I32, .W_U64, .W_F32, .W_NUM, .W_BITS,
        .FE_ENC]
    | .illegalCommand => False
    | .illegalOperand =>
      mnemonic i ∈ [.RDREG, .WRREG, .FROM_NUM, .W_NUM, .R_NUM, .SCH_FD, .SCH_DEF, .FV_WR,
        .FV_RD]
    | .sequenceError => mnemonic i ∈ [.FD_BODY, .FD_SKIP]

/-! ### Invariants -/

/-- Every step keeps the invariants of the block's storage (10_state.md R23, R25, R26, R29, R30, R31, R32;
00_scope.md R7).
The clause on the latch is the spec's own inference (R29: derived from rules R190 and R220). -/
def Obligations.StepKeepsTheInvariant : Prop :=
  ∀ s t : State, s.Inv → step s = .next t → t.Inv

/-- The state after reset meets the invariants, in every legal instance. -/
def Obligations.ResetStateMeetsTheInvariant : Prop :=
  State.reset.Inv ∧ ∀ p : Params, p.Valid → (State.resetWith p).Inv

/-- The parameters are changed by no step (70_reset_and_hazards.md R301). -/
def Obligations.ParametersNeverChange : Prop :=
  ∀ s t : State, step s = .next t → t.params = s.params

/-! ### Digits and conversions -/

/-- `bits_n(v)` has `n` digits, digit `p` being bit `n-1-p` of `v`, and RangeError stands for a `v` of more
than `n` bits (00_scope.md R11). -/
def Obligations.DigitsOfANumber : Prop :=
  ∀ n v : Nat,
    (bitsOf n v).length = n ∧
    (∀ p, p < n → (bitsOf n v)[p]? = some (v.testBit (n - 1 - p))) ∧
    ∀ fe : Option Nat, (v < 2 ^ n → encUnsigned fe n v = .ok (bitsOf n v)) ∧
      (2 ^ n ≤ v → encUnsigned fe n v = .error (.rangeError fe n))

/-- `uval(b)` is the sum of the digits' weights, and gives back the number `bits_n` was made of
(00_scope.md R12).
That the value gives back the number is the spec's own inference (R12: derived from rule R11). -/
def Obligations.ValueOfDigits : Prop :=
  (∀ b : BitString, uval b = ∑ p : Fin b.length, (b[p]).toNat * 2 ^ (b.length - 1 - p.val)) ∧
  uval [] = 0 ∧ ∀ n v : Nat, 1 ≤ n → v < 2 ^ n → uval (bitsOf n v) = v

/-- A BitString is the digits of its value. -/
def Obligations.DigitsOfTheValueAreTheString : Prop :=
  ∀ b : BitString, uval b < 2 ^ b.length ∧ bitsOf b.length (uval b) = b

/-- `enc_i32` accepts what 41_numeric_codec.md R124 says, gives the flag and the 31 magnitude bits, and raises
RangeError(width 31) on the rest; with the default offset it accepts exactly −2^31 to 2^31 − 1. -/
def Obligations.I32EncodingIsFlagAndMagnitude : Prop :=
  (∀ (fe : Option Nat) (v : Int) (off : Nat),
    (I32Encodable v off → encI32 fe v off = .ok (i32Bits v off)) ∧
    (¬I32Encodable v off → encI32 fe v off = .error (.rangeError fe 31))) ∧
  ∀ v : Int, I32Encodable v (2 ^ 31) ↔ -2 ^ 31 ≤ v ∧ v ≤ 2 ^ 31 - 1

/-- With the default offset the i32 encoding is `bits_32(v + 2^31)`, the two's-complement pattern of `v` with
position 0 inverted (41_numeric_codec.md R126).
The spec marks this as its own inference (R126: derived from rule R124 with off = 2^31). -/
def Obligations.DefaultI32EncodingIsOffsetBinary : Prop :=
  ∀ v : Int, -2 ^ 31 ≤ v → v ≤ 2 ^ 31 - 1 →
    encI32 none v (2 ^ 31) = .ok (bitsOf 32 (v + 2 ^ 31).toNat) ∧
    ∃ first others, bitsOf 32 (BitVec.ofInt 32 v).toNat = first :: others ∧
      bitsOf 32 (v + 2 ^ 31).toNat = (!first) :: others

/-- i32 round trip under one offset, and the exact corruption under two (41_numeric_codec.md R127).
The spec marks this as its own inference (R127: derived from rules R124 and R125). -/
def Obligations.I32RoundTripAndOffsetMismatch : Prop :=
  ∀ (fe : Option Nat) (v : Int) (o1 : Nat) (b : BitString), encI32 fe v o1 = .ok b →
    decI32 b o1 = v ∧ ∀ o2 : Nat, v < 0 → decI32 b o2 = v + o1 - o2

/-- The u64 view: low half first, decoding undoes the swap, and a u32 read of either half of the digits gives
that half of the value (41_numeric_codec.md R128, R129; 20_memory.md R53).
The spec marks the u32 reads of the halves as its own inference (R53: derived from rules R53 and R123). -/
def Obligations.U64HalvesAreSwapped : Prop :=
  (∀ b : BitString, b.length = 64 → decU64 b = uval (b.drop 32) * 2 ^ 32 + uval (b.take 32)) ∧
  ∀ v : DataWord,
    encU64 v = bitsOf 32 (v.toNat % 2 ^ 32) ++ bitsOf 32 (v.toNat / 2 ^ 32) ∧
    decU64 (encU64 v) = v.toNat ∧
    decK .u32 (slice (encU64 v) 0 32) 0 0 = BitVec.ofNat 64 (v.toNat % 2 ^ 32) ∧
    decK .u32 (slice (encU64 v) 32 32) 0 0 = BitVec.ofNat 64 (v.toNat / 2 ^ 32)

/-- f32: every non-NaN pattern passes bit-exact both ways; a NaN gives a NaN pattern, and every NaN pattern is
admitted (41_numeric_codec.md R130 to R132). -/
def Obligations.F32PassesPatternsAndDrawsNaNs : Prop :=
  (∀ f raw : BitVec 32, F32Image f (passF32 f raw)) ∧
  (∀ f g : BitVec 32, NaNPattern f → NaNPattern g → ∃ raw, passF32 f raw = g) ∧
  (∀ f raw : BitVec 32, encF32 f raw = bitsOf 32 (passF32 f raw).toNat) ∧
  ∀ f raw raw' : BitVec 32, ¬NaNPattern f → decF32 (encF32 f raw) raw' = f

/-- Every view round-trips: an encodable value's digits have the view's width, pass the length check, and
decode to the value, under one offset and for every non-NaN pattern (41_numeric_codec.md R136, R137).
The spec marks this as its own inference (R137: derived from rules R122 to R136). -/
def Obligations.EveryViewRoundTrips : Prop :=
  ∀ (fe : Option Nat) (k : Kind) (w : Nat) (x : DataWord) (off raw raw' : BitVec 32),
    (k = .num → 1 ≤ w ∧ w ≤ 64) → Fits k w x off.toNat →
    ∃ b, encK fe k w x off raw = .ok b ∧ BitsFor k w x off.toNat b ∧ b.length = widthOf k w ∧
      checkLen k b = .ok () ∧
      ((k = .f32 → ¬NaNPattern (low32 x)) → decK k b off raw' = hostValue k x)

/-- A value outside a view's range raises RangeError naming the width, never a truncation
(41_numeric_codec.md R121; 60_exceptions.md R265, R270). -/
def Obligations.UnencodableValuesRaiseRangeError : Prop :=
  ∀ (fe : Option Nat) (k : Kind) (w : Nat) (x : DataWord) (off raw : BitVec 32),
    ¬Fits k w x off.toNat → encK fe k w x off raw = .error (.rangeError fe (rangeWidth k w))

/-- What `decK` gives on digits of the right length (41_numeric_codec.md R122 to R136). -/
def Obligations.DecodingGivesTheViewsValue : Prop :=
  ∀ (k : Kind) (b : BitString) (off raw : BitVec 32), LengthOk k b.length →
    DecodesTo k off.toNat b (decK k b off raw)

/-- The information words of 60_exceptions.md R270, for numbers that fit their fields. -/
def Obligations.InformationWordLayout : Prop :=
  (∀ (c : Byte) (p : Nat), p < 2 ^ 32 →
    (Raise.invalidCharacter c p).info = infoPair c.toNat p) ∧
  (∀ e a : Nat, a < 2 ^ 32 → (Raise.lengthMismatch e a).info = infoPair e a) ∧
  (∀ r n : Nat, (Raise.readOverrun r n).info = infoPair r (min n 0xFFFFFFFF)) ∧
  (∀ l c : Nat, c < 2 ^ 32 → (Raise.frameConsistency l c).info = infoPair l c) ∧
  (∀ w : Nat, (Raise.rangeError none w).info = BitVec.ofNat 64 w) ∧
  (∀ i w : Nat, i < 2 ^ 8 → w < 2 ^ 8 →
    (Raise.rangeError (some i) w).info = BitVec.ofNat 64 (2 ^ 16 + i * 2 ^ 8 + w)) ∧
  (∀ n : Nat, (Raise.bufferOverflow n).info = BitVec.ofNat 64 n) ∧
  Raise.illegalCommand.info = 0 ∧ Raise.illegalOperand.info = 0 ∧ Raise.sequenceError.info = 0

/-! ### Control commands -/

/-- RDREG reads every mapped CSR into RES, zero-extended, changing nothing else, and raises IllegalOperand on
an unmapped address (47_control.md R240; 10_state.md R33). -/
def Obligations.RdregReadsTheCsrTable : Prop :=
  ∀ (s : State) (a : Imm),
    (commandWord (.rdreg a)).toNat = 0x01000000 + a.toNat ∧
    (∀ v, csrNumber s a.toNat = some v →
      exec (.rdreg a) s = .next (answered { s with res := BitVec.ofNat 64 v } [])) ∧
    (csrNumber s a.toNat = none →
      exec (.rdreg a) s =
        .next (faulted s (commandWord (.rdreg a)) .illegalOperand 0))

/-- WRREG writes the one CSR that is RW, and raises IllegalOperand for the rest, for LENPOL 3 and for SCH_NF
above MAX_FIELDS (47_control.md R241). -/
def Obligations.WrregWritesTheWritableCsrs : Prop :=
  ∀ (s : State) (d : DataWord),
    (∀ a : Imm, (commandWord (.wrreg a d)).toNat = 0x02000000 + a.toNat) ∧
    exec (.wrreg 0x001 d) s = .next (answered { s with i32Offset := low32 d } []) ∧
    (d.toNat % 4 = 0 → exec (.wrreg 0x002 d) s = .next (answered { s with lenpol := .permissive } [])) ∧
    (d.toNat % 4 = 1 → exec (.wrreg 0x002 d) s = .next (answered { s with lenpol := .exact } [])) ∧
    (d.toNat % 4 = 2 → exec (.wrreg 0x002 d) s = .next (answered { s with lenpol := .framed } [])) ∧
    (d.toNat % 4 = 3 →
      exec (.wrreg 0x002 d) s = .next (faulted s (commandWord (.wrreg 0x002 d)) .illegalOperand 0)) ∧
    exec (.wrreg 0x00B d) s = .next (answered { s with schTag := low32 d } []) ∧
    ((low32 d).toNat ≤ s.params.maxFields →
      exec (.wrreg 0x00C d) s = .next (answered { s with schNf := (low32 d).toNat } [])) ∧
    (s.params.maxFields < (low32 d).toNat →
      exec (.wrreg 0x00C d) s = .next (faulted s (commandWord (.wrreg 0x00C d)) .illegalOperand 0)) ∧
    ∀ a : Imm, a.toNat ≠ 0x001 → a.toNat ≠ 0x002 → a.toNat ≠ 0x00B → a.toNat ≠ 0x00C →
      exec (.wrreg a d) s = .next (faulted s (commandWord (.wrreg a d)) .illegalOperand 0)

/-- CLRST clears the fault record and the frame flags and nothing else (47_control.md R242). -/
def Obligations.ClrstClearsTheFaultRecord : Prop :=
  commandWord .clrst = 0x03000000 ∧
  ∀ s : State, ∃ t, exec .clrst s = .next t ∧ statusNumber t.status = 0 ∧
    t = answered { s with status := t.status, faultCmd := 0, faultInfo := 0 } []

/-! ### BitString commands -/

/-- BS_TEXT stores the digits of a text of '0' and '1' (40_bitstring_buffer.md R101, R105). -/
def Obligations.BsTextStoresTheDigits : Prop :=
  ∀ (s : State) (rd : BsReg) (text : List Byte), text.length ≤ s.params.capBits →
    (∀ c ∈ text, c = 0x30 ∨ c = 0x31) →
    exec (.bsText rd text) s =
      .next (answered (withBS s rd (text.map fun c => decide (c = 0x31))) [])

/-- BS_TEXT raises BufferOverflow on a text longer than CAP_BITS, before looking at any character, and else
InvalidCharacter at the first byte that is no digit (40_bitstring_buffer.md R101; 60_exceptions.md R261, R273). -/
def Obligations.BsTextRejectsBadTexts : Prop :=
  ∀ (s : State) (rd : BsReg) (text : List Byte), text.length ≤ 65535 →
    (s.params.capBits < text.length →
      exec (.bsText rd text) s =
        .next (faulted s (commandWord (.bsText rd text)) .bufferOverflow
          (BitVec.ofNat 64 text.length))) ∧
    ∀ (before after : List Byte) (c : Byte), text.length ≤ s.params.capBits →
      text = before ++ c :: after → (∀ b ∈ before, b = 0x30 ∨ b = 0x31) → c ≠ 0x30 → c ≠ 0x31 →
      exec (.bsText rd text) s =
        .next (faulted s (commandWord (.bsText rd text)) .invalidCharacter
          (infoPair c.toNat before.length))

/-- BS_STR answers the digits as text and changes nothing; IS_BIN and BS_LEN write RES alone
(40_bitstring_buffer.md R102, R103, R104). -/
def Obligations.BsStrIsBinAndBsLenAnswer : Prop :=
  ∀ (s : State) (rs : BsReg) (text : List Byte),
    exec (.bsStr rs) s =
      .next (answered s ((s.readBS rs).map fun b => if b = true then 0x31 else 0x30)) ∧
    (text ≠ [] ∧ (∀ c ∈ text, c = 0x30 ∨ c = 0x31) →
      exec (.isBin text) s = .next (answered { s with res := 1 } [])) ∧
    (text = [] ∨ (∃ c ∈ text, c ≠ 0x30 ∧ c ≠ 0x31) →
      exec (.isBin text) s = .next (answered { s with res := 0 } [])) ∧
    exec (.bsLen rs) s =
      .next (answered { s with res := BitVec.ofNat 64 (s.readBS rs).length } [])

/-! ### Codec commands -/

/-- FROM_U16, FROM_U32, FROM_I32, FROM_U64, FROM_F32 and FROM_NUM write the value's digits to `BS[RD]` and
nothing else (41_numeric_codec.md R140 to R145).
How far the draw counter moves is the model's choice (assumption log 4). -/
def Obligations.FromCommandsWriteTheDigits : Prop :=
  ∀ (s : State) (k : Kind) (rd : BsReg) (w : Imm) (d : DataWord), WidthOk k w →
    Fits k w.toNat d s.i32Offset.toNat →
    ∃ b, BitsFor k w.toNat d s.i32Offset.toNat b ∧
      exec (fromCommand k rd w d) s =
        .next (answered { withBS s rd b with nanDraws := s.nanDraws + drawCount k } [])

/-- The FROM_ commands raise RangeError on a value that does not fit, and FROM_NUM IllegalOperand, first, on a
width of 0 or above 64 (41_numeric_codec.md R140 to R145; 60_exceptions.md R268, R273). -/
def Obligations.FromCommandsRejectUnfitValues : Prop :=
  (∀ (s : State) (k : Kind) (rd : BsReg) (w : Imm) (d : DataWord), WidthOk k w →
    ¬Fits k w.toNat d s.i32Offset.toNat →
    exec (fromCommand k rd w d) s =
      .next (faulted s (commandWord (fromCommand k rd w d)) .rangeError
        (BitVec.ofNat 64 (rangeWidth k w.toNat)))) ∧
  ∀ (s : State) (rd : BsReg) (w : Imm) (d : DataWord), w.toNat = 0 ∨ 64 < w.toNat →
    exec (.fromNum rd w d) s =
      .next (faulted s (commandWord (.fromNum rd w d)) .illegalOperand 0)

/-- AS_U16, AS_U32, AS_I32, AS_U64, AS_F32 and AS_NUM write the value of `BS[RS]` to RES and nothing else
(41_numeric_codec.md R146 to R151).
How far the draw counter moves is the model's choice (assumption log 4). -/
def Obligations.AsCommandsGiveTheValue : Prop :=
  ∀ (s : State) (k : Kind) (rs : BsReg), LengthOk k (s.readBS rs).length →
    ∃ x, DecodesTo k s.i32Offset.toNat (s.readBS rs) x ∧
      exec (asCommand k rs) s =
        .next (answered { s with res := x, nanDraws := s.nanDraws + drawCount k } [])

/-- The AS_ commands raise LengthMismatch, naming the width, on any other length; AS_NUM names 0
(41_numeric_codec.md R135; 60_exceptions.md R262, R270). -/
def Obligations.AsCommandsRejectOtherLengths : Prop :=
  ∀ (s : State) (k : Kind) (rs : BsReg), s.Inv → ¬LengthOk k (s.readBS rs).length →
    exec (asCommand k rs) s =
      .next (faulted s (commandWord (asCommand k rs)) .lengthMismatch
        (infoPair (widthOf k 0) (s.readBS rs).length))

/-! ### Writer commands -/

/-- W_U16, W_U32, W_I32, W_U64, W_F32 and W_NUM append the value's digits to `W.BUF` and change nothing else
(42_cursor_writer.md R161 to R166).
How far the draw counter moves is the model's choice (assumption log 4). -/
def Obligations.WriteCommandsAppendTheDigits : Prop :=
  ∀ (s : State) (k : Kind) (w : Imm) (d : DataWord), WidthOk k w →
    Fits k w.toNat d s.i32Offset.toNat →
    s.wBuf.length + widthOf k w.toNat ≤ s.params.capBits →
    ∃ b, BitsFor k w.toNat d s.i32Offset.toNat b ∧
      exec (writeCommand k w d) s =
        .next (answered
          { s with wBuf := s.wBuf ++ b, nanDraws := s.nanDraws + drawCount k } [])

/-- The W_ commands raise, in this order, IllegalOperand (W_NUM), RangeError, and BufferOverflow with the length
the buffer would have had (42_cursor_writer.md R160 to R167; 60_exceptions.md R273). -/
def Obligations.WriteCommandsRejectInOrder : Prop :=
  (∀ (s : State) (w : Imm) (d : DataWord), w.toNat = 0 ∨ 64 < w.toNat →
    exec (.wNum w d) s = .next (faulted s (commandWord (.wNum w d)) .illegalOperand 0)) ∧
  (∀ (s : State) (k : Kind) (w : Imm) (d : DataWord), WidthOk k w →
    ¬Fits k w.toNat d s.i32Offset.toNat →
    exec (writeCommand k w d) s =
      .next (faulted s (commandWord (writeCommand k w d)) .rangeError
        (BitVec.ofNat 64 (rangeWidth k w.toNat)))) ∧
  (∀ (s : State) (k : Kind) (w : Imm) (d : DataWord), WidthOk k w →
    Fits k w.toNat d s.i32Offset.toNat →
    s.params.capBits < s.wBuf.length + widthOf k w.toNat →
    exec (writeCommand k w d) s =
      .next (faulted s (commandWord (writeCommand k w d)) .bufferOverflow
        (BitVec.ofNat 64 (s.wBuf.length + widthOf k w.toNat)))) ∧
  ∀ (s : State) (rs : BsReg), s.params.capBits < s.wBuf.length + (s.readBS rs).length →
    exec (.wBits rs) s =
      .next (faulted s (commandWord (.wBits rs)) .bufferOverflow
        (BitVec.ofNat 64 (s.wBuf.length + (s.readBS rs).length)))

/-- W_BITS appends `BS[RS]` unchanged; W_FLUSH moves the buffer to `BS[RD]`, its length to RES, and empties it
(42_cursor_writer.md R167, R168). -/
def Obligations.WBitsAppendsAndWFlushExtracts : Prop :=
  (∀ (s : State) (rs : BsReg), s.wBuf.length + (s.readBS rs).length ≤ s.params.capBits →
    exec (.wBits rs) s = .next (answered { s with wBuf := s.wBuf ++ s.readBS rs } [])) ∧
  ∀ (s : State) (rd : BsReg),
    exec (.wFlush rd) s =
      .next (answered
        { withBS s rd s.wBuf with res := BitVec.ofNat 64 s.wBuf.length, wBuf := [] } [])

/-! ### Reader commands -/

/-- R_U16, R_U32, R_I32, R_U64, R_F32 and R_NUM read exactly their width at `R.POS` into RES, advance `R.POS` by
it, clear FD.HVALID, and change nothing else (43_cursor_reader.md R181 to R186).
How far the draw counter moves is the model's choice (assumption log 4). -/
def Obligations.ReadCommandsConsumeTheirWidth : Prop :=
  ∀ (s : State) (k : Kind) (w : Imm), WidthOk k w →
    s.rPos + widthOf k w.toNat ≤ s.rSrc.length →
    ∃ x, DecodesTo k s.i32Offset.toNat ((s.rSrc.drop s.rPos).take (widthOf k w.toNat)) x ∧
      exec (readCommand k w) s =
        .next (answered
          { s with
            rPos := s.rPos + widthOf k w.toNat
            res := x
            fdHvalid := false
            nanDraws := s.nanDraws + drawCount k } [])

/-- Reading more bits than remain raises ReadOverrun with the bits left and the bits asked for (clipped to 32
bits); R_NUM first raises IllegalOperand on a bad width (43_cursor_reader.md R180, R186 to R188;
60_exceptions.md R263, R270). -/
def Obligations.ReadsPastTheEndRaiseReadOverrun : Prop :=
  (∀ (s : State) (k : Kind) (w : Imm), WidthOk k w →
    s.rSrc.length - s.rPos < widthOf k w.toNat →
    exec (readCommand k w) s =
      .next (faulted s (commandWord (readCommand k w)) .readOverrun
        (infoPair (s.rSrc.length - s.rPos) (widthOf k w.toNat)))) ∧
  (∀ (s : State) (w : Imm), w.toNat = 0 ∨ 64 < w.toNat →
    exec (.rNum w) s = .next (faulted s (commandWord (.rNum w)) .illegalOperand 0)) ∧
  ∀ (s : State) (rd : BsReg) (n : DataWord), s.rSrc.length - s.rPos < n.toNat →
    exec (.rBits rd n) s =
      .next (faulted s (commandWord (.rBits rd n)) .readOverrun
        (infoPair (s.rSrc.length - s.rPos) (min n.toNat 0xFFFFFFFF))) ∧
    exec (.rSkip n) s =
      .next (faulted s (commandWord (.rSkip n)) .readOverrun
        (infoPair (s.rSrc.length - s.rPos) (min n.toNat 0xFFFFFFFF)))

/-- R_BITS copies the next bits to `BS[RD]`, R_SKIP passes over them, R_LOAD copies `BS[RS]` into `R.SRC` at
position 0; all clear FD.HVALID (43_cursor_reader.md R187, R188, R190). -/
def Obligations.RBitsRSkipAndRLoadMoveTheCursor : Prop :=
  (∀ (s : State) (rd : BsReg) (n : DataWord), n.toNat ≤ s.rSrc.length - s.rPos →
    exec (.rBits rd n) s =
      .next (answered
        { withBS s rd ((s.rSrc.drop s.rPos).take n.toNat) with
          rPos := s.rPos + n.toNat
          fdHvalid := false } []) ∧
    exec (.rSkip n) s =
      .next (answered { s with rPos := s.rPos + n.toNat, fdHvalid := false } [])) ∧
  ∀ (s : State) (rs : BsReg),
    exec (.rLoad rs) s =
      .next (answered { s with rSrc := s.readBS rs, rPos := 0, fdHvalid := false } [])

/-! ### Schema commands -/

/-- SCH_FD, SCH_DEF and FV_WR store at their index and FV_RD reads at it, changing nothing else
(44_frame_schema.md R200 to R203). `f` is the well-formed descriptor the data word packs (10_state.md R38). -/
def Obligations.SchemaCommandsStoreAndRead : Prop :=
  ∀ (s : State) (i : Imm) (d : DataWord) (f : Descriptor), i.toNat < s.params.maxFields →
    (f.width.toNat = d.toNat % 2 ^ 7 → kindNumber f.kind = d.toNat / 2 ^ 8 % 2 ^ 3 →
      f.ver.toNat = d.toNat / 2 ^ 32 →
      (f.kind = .num ∧ 1 ≤ f.width.toNat ∧ f.width.toNat ≤ 64 ∨
        f.kind ≠ .num ∧ f.width.toNat = widthOf f.kind 0) →
      exec (.schFd i d) s = .next (answered { s with schFd := s.schFd.set i.toNat f } [])) ∧
    exec (.schDef i d) s = .next (answered { s with schDef := s.schDef.set i.toNat d } []) ∧
    exec (.fvWr i d) s = .next (answered { s with fv := s.fv.set i.toNat d } []) ∧
    exec (.fvRd i) s = .next (answered { s with res := s.fieldValue i.toNat } [])

/-- SCH_FD refuses kind codes 6 and 7 and a width that does not agree with the kind; every schema command refuses
an index at or above MAX_FIELDS (44_frame_schema.md R200 to R203; 60_exceptions.md R268). -/
def Obligations.SchemaCommandsRejectBadOperands : Prop :=
  ∀ (s : State) (i : Imm) (d : DataWord),
    ((6 ≤ d.toNat / 2 ^ 8 % 2 ^ 3 ∨
        ∃ k, kindNumber k = d.toNat / 2 ^ 8 % 2 ^ 3 ∧ ¬LengthOk k (d.toNat % 2 ^ 7)) →
      exec (.schFd i d) s = .next (faulted s (commandWord (.schFd i d)) .illegalOperand 0)) ∧
    (s.params.maxFields ≤ i.toNat →
      exec (.schFd i d) s = .next (faulted s (commandWord (.schFd i d)) .illegalOperand 0) ∧
      exec (.schDef i d) s = .next (faulted s (commandWord (.schDef i d)) .illegalOperand 0) ∧
      exec (.fvWr i d) s = .next (faulted s (commandWord (.fvWr i d)) .illegalOperand 0) ∧
      exec (.fvRd i) s = .next (faulted s (commandWord (.fvRd i)) .illegalOperand 0))

/-! ### Frames -/

/-- FE_ENC, when every present field's value fits, builds `bits_32(tag) ++ bits_32(length) ++ payload` in
`BS[RD]`, the payload being the present fields' digits in declaration order, puts the length in RES, and changes
nothing else; the frame always fits (45_frame_encoder.md R210, R211, R213).
How far the draw counter moves is the model's choice (assumption log 4).
That the frame fits is the spec's own inference (R211: derived from rules R7 and R136). -/
def Obligations.FeEncBuildsTheFrame : Prop :=
  ∀ (s : State) (rd : BsReg) (v : DataWord), s.Inv →
    (∀ i, i < s.schNf → Present s (low32 v) i → FieldFits s i) →
    ∃ (pieces : Nat → BitString) (payload : BitString) (draws : Nat),
      (∀ i, i < s.schNf → (Present s (low32 v) i → FieldBits s i (pieces i)) ∧
        (¬Present s (low32 v) i → pieces i = [])) ∧
      payload = (List.range s.schNf).flatMap pieces ∧
      payload.length = payloadLength s (low32 v) ∧
      exec (.feEnc rd v) s =
        .next (answered
          { withBS s rd (bitsOf 32 s.schTag.toNat ++ bitsOf 32 payload.length ++ payload) with
            res := BitVec.ofNat 64 payload.length
            nanDraws := s.nanDraws + draws } [])

/-- FE_ENC raises RangeError naming the first present field, in declaration order, whose value does not fit
(45_frame_encoder.md R211; 60_exceptions.md R270). -/
def Obligations.FeEncNamesTheFirstUnfitField : Prop :=
  ∀ (s : State) (rd : BsReg) (v : DataWord) (i : Nat), s.Inv → i < s.schNf →
    (∀ j, j < i → Present s (low32 v) j → FieldFits s j) →
    Present s (low32 v) i → ¬FieldFits s i →
    exec (.feEnc rd v) s =
      .next (faulted s (commandWord (.feEnc rd v)) .rangeError
        (BitVec.ofNat 64 (2 ^ 16 + i * 2 ^ 8 +
          rangeWidth (s.descriptor i).kind (s.descriptor i).width.toNat)))

/-- FD_HDR latches the tag, the declared length and the payload start, and gives `LEN << 32 | TAG`; with fewer
than 64 bits left it raises ReadOverrun and an earlier latch stays (46_frame_decoder.md R220). -/
def Obligations.FdHdrLatchesTheHeader : Prop :=
  commandWord .fdHdr = 0x65000000 ∧
  ∀ s : State,
    (s.rPos + 64 ≤ s.rSrc.length → ∃ tag len : BitVec 32,
      tag.toNat = uval ((s.rSrc.drop s.rPos).take 32) ∧
      len.toNat = uval ((s.rSrc.drop (s.rPos + 32)).take 32) ∧
      exec .fdHdr s =
        .next (answered
          { s with
            rPos := s.rPos + 64
            fdTag := tag
            fdLen := len
            fdPstart := BitVec.ofNat 32 (s.rPos + 64)
            fdHvalid := true
            res := infoPair len.toNat tag.toNat } [])) ∧
    (s.rSrc.length - s.rPos < 64 →
      exec .fdHdr s =
        .next (faulted s (commandWord .fdHdr) .readOverrun
          (infoPair (s.rSrc.length - s.rPos) 64)))

/-- FD_BODY, when the walk and the length policy succeed, decodes every present field from its place in the
payload, gives every absent field its default, leaves the other field values, and moves the cursor and the flags
as the policy says; it changes nothing else (46_frame_decoder.md R221, R222, R223).
How far the draw counter moves is the model's choice (assumption log 4). -/
def Obligations.FdBodyDecodesTheFields : Prop :=
  ∀ (s : State) (v : DataWord) (c n : Nat), s.Inv → s.fdHvalid = true →
    c = payloadLength s (low32 v) → s.rPos + c ≤ s.rSrc.length →
    (s.lenpol = .permissive ∧ n = c ∨
      s.lenpol = .exact ∧ c = s.fdLen.toNat ∧ n = c ∨
      s.lenpol = .framed ∧ c ≤ s.fdLen.toNat ∧ s.rPos + s.fdLen.toNat ≤ s.rSrc.length ∧
        n = s.fdLen.toNat) →
    ∃ (fv : List DataWord) (draws : Nat),
      exec (.fdBody v) s =
        .next (answered
          { s with
            fv := fv
            rPos := s.rPos + n
            status :=
              { s.status with
                underrun := s.status.underrun || decide (c < s.fdLen.toNat)
                overrun := s.status.overrun || decide (s.fdLen.toNat < c) }
            fdConsumed := BitVec.ofNat 32 c
            fdHvalid := false
            res := BitVec.ofNat 64 c
            nanDraws := s.nanDraws + draws } []) ∧
      fv.length = s.fv.length ∧
      ∀ i, (i < s.schNf → Present s (low32 v) i →
          DecodesTo (s.descriptor i).kind s.i32Offset.toNat
            ((s.rSrc.drop (s.rPos + offsetOf s (low32 v) i)).take (s.descriptor i).width.toNat)
            (fv.getD i 0)) ∧
        (i < s.schNf → ¬Present s (low32 v) i → fv.getD i 0 = s.defaultValue i) ∧
        (s.schNf ≤ i → fv.getD i 0 = s.fieldValue i)

/-- FD_BODY raises SequenceError without a latched header, else ReadOverrun for the first field past the end of
the source, then the fault of the length policy (46_frame_decoder.md R221, R223;
60_exceptions.md R264, R269). -/
def Obligations.FdBodyRaisesItsFaultsInOrder : Prop :=
  (∀ (s : State) (v : DataWord), s.fdHvalid = false →
    exec (.fdBody v) s = .next (faulted s (commandWord (.fdBody v)) .sequenceError 0)) ∧
  (∀ (s : State) (v : DataWord) (i : Nat), s.fdHvalid = true → i < s.schNf →
    Present s (low32 v) i → s.rPos + offsetOf s (low32 v) i ≤ s.rSrc.length →
    s.rSrc.length < s.rPos + offsetOf s (low32 v) i + (s.descriptor i).width.toNat →
    exec (.fdBody v) s =
      .next (faulted s (commandWord (.fdBody v)) .readOverrun
        (infoPair (s.rSrc.length - (s.rPos + offsetOf s (low32 v) i))
          (s.descriptor i).width.toNat))) ∧
  ∀ (s : State) (v : DataWord) (c : Nat), s.Inv → s.fdHvalid = true →
    c = payloadLength s (low32 v) → s.rPos + c ≤ s.rSrc.length →
    (s.lenpol = .exact ∧ c ≠ s.fdLen.toNat ∨ s.lenpol = .framed ∧ s.fdLen.toNat < c →
      exec (.fdBody v) s =
        .next (faulted s (commandWord (.fdBody v)) .frameConsistency
          (infoPair s.fdLen.toNat c))) ∧
    (s.lenpol = .framed ∧ c < s.fdLen.toNat ∧ s.rSrc.length < s.rPos + s.fdLen.toNat →
      exec (.fdBody v) s =
        .next (faulted s (commandWord (.fdBody v)) .readOverrun
          (infoPair (s.rSrc.length - (s.rPos + c)) (s.fdLen.toNat - c))))

/-- FD_SKIP moves the cursor by the declared length and clears the latch, whatever LENPOL and the schema are, and
raises ReadOverrun on a truncated frame and SequenceError without a latched header (46_frame_decoder.md R224). -/
def Obligations.FdSkipPassesOverThePayload : Prop :=
  commandWord .fdSkip = 0x67000000 ∧
  ∀ s : State,
    (s.fdHvalid = true → s.fdLen.toNat ≤ s.rSrc.length - s.rPos →
      exec .fdSkip s =
        .next (answered { s with rPos := s.rPos + s.fdLen.toNat, fdHvalid := false } [])) ∧
    (s.fdHvalid = false →
      exec .fdSkip s = .next (faulted s (commandWord .fdSkip) .sequenceError 0)) ∧
    (s.fdHvalid = true → s.rSrc.length - s.rPos < s.fdLen.toNat →
      exec .fdSkip s =
        .next (faulted s (commandWord .fdSkip) .readOverrun
          (infoPair (s.rSrc.length - s.rPos) s.fdLen.toNat)))

/-- A frame round-trips: encoded at a version and decoded at it with the same schema, every present field comes
back as encoded and every absent one as its default, the cursor stands at the frame's end and no flag is set, under
every length policy (46_frame_decoder.md R225).
The spec marks this as its own inference (R225: derived from rules R204, R205, R211, R221 and R223). -/
def Obligations.FrameRoundTripReproducesTheFields : Prop :=
  ∀ (s : State) (rd : BsReg) (v : DataWord), s.Inv →
    (∀ i, i < s.schNf → Present s (low32 v) i → FieldFits s i ∧ FieldNotNaN s i) →
    ∃ s1 s2 s3 s4 : State,
      exec (.feEnc rd v) s = .next s1 ∧ exec (.rLoad rd) s1 = .next s2 ∧
      exec .fdHdr s2 = .next s3 ∧ exec (.fdBody v) s3 = .next s4 ∧
      s3.fdTag = s.schTag ∧ s3.fdLen.toNat = payloadLength s (low32 v) ∧
      s4.fdConsumed = s3.fdLen ∧ s4.rPos = s4.rSrc.length ∧ s4.status = s.status ∧
      ∀ i, i < s.schNf →
        (Present s (low32 v) i →
          s4.fieldValue i = hostValue (s.descriptor i).kind (s.fieldValue i)) ∧
        (¬Present s (low32 v) i → s4.fieldValue i = s.defaultValue i)

/-- Decoding at a lower version than encoding, with a monotone schema and under FRAMED or PERMISSIVE, gives the
fields present at the lower version their encoded values and the rest their defaults, sets UNDER exactly when bits
were left, and FRAMED leaves the cursor at the frame's end (46_frame_decoder.md R225; 44_frame_schema.md R205).
The spec marks this as its own inference (R225, R205). -/
def Obligations.LowerVersionDecodeGivesThePrefix : Prop :=
  ∀ (s : State) (rd : BsReg) (v v' : DataWord), s.Inv → Monotone s → s.lenpol ≠ .exact →
    (low32 v').toNat ≤ (low32 v).toNat →
    (∀ i, i < s.schNf → Present s (low32 v) i → FieldFits s i ∧ FieldNotNaN s i) →
    ∃ s1 s2 s3 s4 : State,
      exec (.feEnc rd v) s = .next s1 ∧ exec (.rLoad rd) s1 = .next s2 ∧
      exec .fdHdr s2 = .next s3 ∧ exec (.fdBody v') s3 = .next s4 ∧
      (s.lenpol = .framed → s4.rPos = s4.rSrc.length) ∧
      (s.lenpol = .permissive → s4.rPos = 64 + payloadLength s (low32 v')) ∧
      s4.status.underrun =
        (s.status.underrun || decide (payloadLength s (low32 v') < payloadLength s (low32 v))) ∧
      s4.status.overrun = s.status.overrun ∧
      ∀ i, i < s.schNf →
        (Present s (low32 v') i →
          s4.fieldValue i = hostValue (s.descriptor i).kind (s.fieldValue i)) ∧
        (¬Present s (low32 v') i → s4.fieldValue i = s.defaultValue i)

/-- Fields at or above SCH.NF take no part in any frame operation (10_state.md R30; 45_frame_encoder.md R211;
46_frame_decoder.md R220, R221, R224): replacing the descriptor, the default and the value of one changes nothing
that FE_ENC, FD_HDR, FD_BODY or FD_SKIP does, completed or faulted, and the replacement itself stays as it was stored.
That the response log and the draw counter agree too is said of the model's own fields (assumption logs 3, 4). -/
def Obligations.FieldsBeyondSchNfTakeNoPartInFrames : Prop :=
  ∀ (i : Instr) (s : State) (j : Nat) (f : Descriptor) (dflt value : DataWord), s.schNf ≤ j →
    mnemonic i ∈ [.FE_ENC, .FD_HDR, .FD_BODY, .FD_SKIP] →
    ∃ t, exec i s = .next t ∧ exec i (withField s j f dflt value) = .next (withField t j f dflt value)

/-! ### Rules over all commands -/

/-- The header latch: only FD_HDR sets FD.HVALID, every reader command and FD_BODY and FD_SKIP clear it when they
complete, every other command and every fault leaves it (10_state.md R28, R29; 43_cursor_reader.md R189;
70_reset_and_hazards.md R308). -/
def Obligations.LatchLifeFollowsTheCommands : Prop :=
  ∀ (i : Instr) (s t : State), exec i s = .next t →
    ((∃ c info, t = faulted s (commandWord i) c info) ∧ t.fdHvalid = s.fdHvalid) ∨
    (mnemonic i = .FD_HDR → t.fdHvalid = true) ∧
    (mnemonic i ∈ latchClearing → t.fdHvalid = false) ∧
    (mnemonic i ≠ .FD_HDR → mnemonic i ∉ latchClearing → t.fdHvalid = s.fdHvalid)

/-- RES is written only by the commands whose rules write it (10_state.md R27). -/
def Obligations.OnlyResultCommandsWriteRes : Prop :=
  ∀ (i : Instr) (s t : State), exec i s = .next t → t.res ≠ s.res →
    mnemonic i ∈ [.RDREG, .IS_BIN, .BS_LEN, .AS_U16, .AS_U32, .AS_I32, .AS_U64, .AS_F32,
      .AS_NUM, .W_FLUSH, .R_U16, .R_U32, .R_I32, .R_U64, .R_F32, .R_NUM, .FV_RD, .FE_ENC,
      .FD_HDR, .FD_BODY]

/-- Each piece of storage is changed only by the commands that write it: BitString registers by the commands that
name them as RD (10_state.md R24), `W.BUF` by the writer (R25), `R.SRC` by R_LOAD and `R.POS` by the reader and the
frame decoder (R26), field values, descriptors, defaults and configuration by theirs (44_frame_schema.md R200 to R202;
46_frame_decoder.md R220, R221; 47_control.md R241), and the parameters by none (70_reset_and_hazards.md R301).
The model's choice: the host's queue, which no command changes (assumption log 2; the nearest rule is
20_memory.md R66: no command writes the command stream). -/
def Obligations.StorageIsWrittenOnlyByItsCommands : Prop :=
  ∀ (i : Instr) (s t : State), exec i s = .next t →
    (∀ r : BsReg, t.readBS r ≠ s.readBS r → rdField (commandWord i) = r ∧
      mnemonic i ∈ [.BS_TEXT, .FROM_U16, .FROM_U32, .FROM_I32, .FROM_U64, .FROM_F32,
        .FROM_NUM, .W_FLUSH, .R_BITS, .FE_ENC]) ∧
    (t.wBuf ≠ s.wBuf →
      mnemonic i ∈ [.W_U16, .W_U32, .W_I32, .W_U64, .W_F32, .W_NUM, .W_BITS, .W_FLUSH]) ∧
    (t.rSrc ≠ s.rSrc → mnemonic i = .R_LOAD) ∧
    (t.rPos ≠ s.rPos →
      mnemonic i ∈ [.R_U16, .R_U32, .R_I32, .R_U64, .R_F32, .R_NUM, .R_BITS, .R_SKIP,
        .R_LOAD, .FD_HDR, .FD_BODY, .FD_SKIP]) ∧
    (t.fdTag ≠ s.fdTag ∨ t.fdLen ≠ s.fdLen ∨ t.fdPstart ≠ s.fdPstart → mnemonic i = .FD_HDR) ∧
    (t.fdConsumed ≠ s.fdConsumed → mnemonic i = .FD_BODY) ∧
    (t.schTag ≠ s.schTag ∨ t.schNf ≠ s.schNf ∨ t.i32Offset ≠ s.i32Offset ∨ t.lenpol ≠ s.lenpol →
      mnemonic i = .WRREG) ∧
    (t.schFd ≠ s.schFd → mnemonic i = .SCH_FD) ∧ (t.schDef ≠ s.schDef → mnemonic i = .SCH_DEF) ∧
    (t.fv ≠ s.fv → mnemonic i ∈ [.FV_WR, .FD_BODY]) ∧
    t.hostIn = s.hostIn ∧ t.params = s.params

/-- ERR, UNDER and OVER are sticky: no command but CLRST clears them (10_state.md R34), and UNDER and OVER are
set by FD_BODY alone. -/
def Obligations.StickyFlagsAreClearedOnlyByClrst : Prop :=
  ∀ (i : Instr) (s t : State), exec i s = .next t →
    (mnemonic i ≠ .CLRST →
      (s.status.err = true → t.status.err = true) ∧
      (s.status.underrun = true → t.status.underrun = true) ∧
      (s.status.overrun = true → t.status.overrun = true) ∧
      (s.status.fcause ≠ none → t.status.fcause = s.status.fcause)) ∧
    (t.status.underrun = true → s.status.underrun = false → mnemonic i = .FD_BODY) ∧
    (t.status.overrun = true → s.status.overrun = false →
      mnemonic i = .FD_BODY ∧ s.lenpol = .permissive)
end

