-- ==== Sys2Proof/Laws/Decode.lean ====
section
/-!
SUPPORT. The fields of an assembled command word, the masks of 30_encoding.md R76 on it, and what a row's test
says.
-/

namespace Sys2Proof

/-! ### The fields of an assembled word -/

@[simp] theorem opField_assemble (op : BitVec 8) (rd rs : BsReg) (imm : Imm) :
    opField (assemble op rd rs imm) = op := by
  unfold opField assemble
  ext i hi
  simp [BitVec.getLsbD_of_ge, show 24 + i < 32 by omega, show ¬24 + i < 20 by omega,
    show ¬24 + i < 16 by omega, show 4 ≤ 24 + i - 20 by omega, show 4 ≤ 24 + i - 16 by omega,
    BitVec.getLsbD_of_ge imm (24 + i) (by omega), BitVec.getLsbD_eq_getElem hi]

@[simp] theorem rdField_assemble (op : BitVec 8) (rd rs : BsReg) (imm : Imm) :
    rdField (assemble op rd rs imm) = rd := by
  unfold rdField assemble
  ext i hi
  simp [BitVec.getLsbD_of_ge, show 20 + i < 32 by omega, show 20 + i < 24 by omega,
    show ¬20 + i < 16 by omega, show 4 ≤ 20 + i - 16 by omega,
    BitVec.getLsbD_of_ge imm (20 + i) (by omega), BitVec.getLsbD_eq_getElem hi]

@[simp] theorem rsField_assemble (op : BitVec 8) (rd rs : BsReg) (imm : Imm) :
    rsField (assemble op rd rs imm) = rs := by
  unfold rsField assemble
  ext i hi
  simp [BitVec.getLsbD_of_ge, show 16 + i < 32 by omega, show 16 + i < 24 by omega,
    show 16 + i < 20 by omega, BitVec.getLsbD_eq_getElem hi]

@[simp] theorem immField_assemble (op : BitVec 8) (rd rs : BsReg) (imm : Imm) :
    immField (assemble op rd rs imm) = imm := by
  unfold immField assemble
  ext i hi
  simp [show i < 32 by omega, show i < 24 by omega, show i < 20 by omega, hi]

/-- Every word is assembled from its four fields. -/
theorem assemble_fields (cw : CommandWord) :
    assemble (opField cw) (rdField cw) (rsField cw) (immField cw) = cw := by
  unfold assemble opField rdField rsField immField
  ext i hi
  simp [BitVec.getLsbD_extractLsb']
  by_cases h1 : i < 16
  · simp [h1, show i < 24 by omega, show i < 20 by omega, BitVec.getLsbD_eq_getElem hi]
  by_cases h2 : i < 20
  · simp [h1, h2, show i < 24 by omega, show i - 16 < 4 by omega, show 16 + (i - 16) = i by omega,
      BitVec.getLsbD_eq_getElem hi]
  by_cases h3 : i < 24
  · simp [h1, h2, h3, show ¬i - 16 < 4 by omega, show i - 20 < 4 by omega,
      show 20 + (i - 20) = i by omega, BitVec.getLsbD_eq_getElem hi]
  · simp [h1, h2, h3, show ¬i - 16 < 4 by omega, show ¬i - 20 < 4 by omega,
      show i - 24 < 8 by omega, show 24 + (i - 24) = i by omega, BitVec.getLsbD_eq_getElem hi]

/-- Two words are equal exactly when their fields are. -/
theorem assemble_inj {op op' : BitVec 8} {rd rd' rs rs' : BsReg} {imm imm' : Imm} :
    assemble op rd rs imm = assemble op' rd' rs' imm' ↔
      op = op' ∧ rd = rd' ∧ rs = rs' ∧ imm = imm' := by
  constructor
  · intro h
    refine ⟨?_, ?_, ?_, ?_⟩
    · rw [← opField_assemble op rd rs imm, h, opField_assemble]
    · rw [← rdField_assemble op rd rs imm, h, rdField_assemble]
    · rw [← rsField_assemble op rd rs imm, h, rsField_assemble]
    · rw [← immField_assemble op rd rs imm, h, immField_assemble]
  · rintro ⟨rfl, rfl, rfl, rfl⟩; rfl

theorem textLen_assemble (op : BitVec 8) (rd rs : BsReg) (imm : Imm) :
    textLen (assemble op rd rs imm) = if op = 0x10 ∨ op = 0x12 then imm.toNat else 0 := by
  simp [textLen]

/-! ### The five masks of the opcode table -/

theorem fields_and (a b : CommandWord) :
    opField (a &&& b) = opField a &&& opField b ∧ rdField (a &&& b) = rdField a &&& rdField b ∧
    rsField (a &&& b) = rsField a &&& rsField b ∧
    immField (a &&& b) = immField a &&& immField b := by
  unfold opField rdField rsField immField
  refine ⟨?_, ?_, ?_, ?_⟩ <;> (ext i hi; simp)

/-- A mask works field by field. -/
theorem assemble_and (op op' : BitVec 8) (rd rd' rs rs' : BsReg) (imm imm' : Imm) :
    assemble op rd rs imm &&& assemble op' rd' rs' imm' =
      assemble (op &&& op') (rd &&& rd') (rs &&& rs') (imm &&& imm') := by
  rw [← assemble_fields (assemble op rd rs imm &&& assemble op' rd' rs' imm')]
  obtain ⟨a, b, c, d⟩ := fields_and (assemble op rd rs imm) (assemble op' rd' rs' imm')
  rw [a, b, c, d]
  simp only [opField_assemble, rdField_assemble, rsField_assemble, immField_assemble]

theorem and_ones8 (x : BitVec 8) : x &&& 0xFF#8 = x := BitVec.and_allOnes
theorem and_ones4 (x : BitVec 4) : x &&& 0xF#4 = x := BitVec.and_allOnes
theorem and_ones16 (x : BitVec 16) : x &&& 0xFFFF#16 = x := BitVec.and_allOnes

section Masks

variable (op : BitVec 8) (rd rs : BsReg) (imm : Imm)

/-- The mask of a command that uses IMM alone. -/
@[simp] theorem and_mask_imm :
    assemble op rd rs imm &&& 0xFFFF0000#32 = assemble op rd rs 0 := by
  rw [show 0xFFFF0000#32 = assemble 0xFF#8 0xF#4 0xF#4 0#16 by rfl, assemble_and]
  simp [and_ones8, and_ones4]

/-- The mask of a command that uses no field. -/
@[simp] theorem and_mask_none :
    assemble op rd rs imm &&& 0xFFFFFFFF#32 = assemble op rd rs imm := BitVec.and_allOnes

/-- The mask of a command that uses RD and IMM. -/
@[simp] theorem and_mask_rd_imm :
    assemble op rd rs imm &&& 0xFF0F0000#32 = assemble op 0 rs 0 := by
  rw [show 0xFF0F0000#32 = assemble 0xFF#8 0#4 0xF#4 0#16 by rfl, assemble_and]
  simp [and_ones8, and_ones4]

/-- The mask of a command that uses RS alone. -/
@[simp] theorem and_mask_rs :
    assemble op rd rs imm &&& 0xFFF0FFFF#32 = assemble op rd 0 imm := by
  rw [show 0xFFF0FFFF#32 = assemble 0xFF#8 0xF#4 0#4 0xFFFF#16 by rfl, assemble_and]
  simp [and_ones8, and_ones4, and_ones16]

/-- The mask of a command that uses RD alone. -/
@[simp] theorem and_mask_rd :
    assemble op rd rs imm &&& 0xFF0FFFFF#32 = assemble op 0 rs imm := by
  rw [show 0xFF0FFFFF#32 = assemble 0xFF#8 0#4 0xF#4 0xFFFF#16 by rfl, assemble_and]
  simp [and_ones8, and_ones4, and_ones16]

end Masks

/-- What a row's test says when it accepts. -/
theorem selectRow_eq_ok {cw m k : CommandWord} {i j : Instr} :
    selectRow cw m k i = .ok j ↔ cw &&& k = m ∧ i = j := by
  unfold selectRow
  split <;> simp_all

end Sys2Proof
end

