-- ==== Sys2Proof/Laws/State.lean ====
section
/-!
SUPPORT. One lemma per field per named update of State, true by rfl, so that no proof unfolds a record
update.
-/

namespace Sys2Proof.Machine

/-! ### `writeBS` -/

section WriteBS

variable (s : State) (r : BsReg) (b : BitString)

@[simp] theorem writeBS_bs : (s.writeBS r b).bs = s.bs.set r.toNat b r.isLt := rfl
@[simp] theorem writeBS_wBuf : (s.writeBS r b).wBuf = s.wBuf := rfl
@[simp] theorem writeBS_rSrc : (s.writeBS r b).rSrc = s.rSrc := rfl
@[simp] theorem writeBS_rPos : (s.writeBS r b).rPos = s.rPos := rfl
@[simp] theorem writeBS_res : (s.writeBS r b).res = s.res := rfl
@[simp] theorem writeBS_fdTag : (s.writeBS r b).fdTag = s.fdTag := rfl
@[simp] theorem writeBS_fdLen : (s.writeBS r b).fdLen = s.fdLen := rfl
@[simp] theorem writeBS_fdPstart : (s.writeBS r b).fdPstart = s.fdPstart := rfl
@[simp] theorem writeBS_fdHvalid : (s.writeBS r b).fdHvalid = s.fdHvalid := rfl
@[simp] theorem writeBS_fdConsumed : (s.writeBS r b).fdConsumed = s.fdConsumed := rfl
@[simp] theorem writeBS_schTag : (s.writeBS r b).schTag = s.schTag := rfl
@[simp] theorem writeBS_schNf : (s.writeBS r b).schNf = s.schNf := rfl
@[simp] theorem writeBS_schFd : (s.writeBS r b).schFd = s.schFd := rfl
@[simp] theorem writeBS_schDef : (s.writeBS r b).schDef = s.schDef := rfl
@[simp] theorem writeBS_fv : (s.writeBS r b).fv = s.fv := rfl
@[simp] theorem writeBS_i32Offset : (s.writeBS r b).i32Offset = s.i32Offset := rfl
@[simp] theorem writeBS_lenpol : (s.writeBS r b).lenpol = s.lenpol := rfl
@[simp] theorem writeBS_status : (s.writeBS r b).status = s.status := rfl
@[simp] theorem writeBS_faultCmd : (s.writeBS r b).faultCmd = s.faultCmd := rfl
@[simp] theorem writeBS_faultInfo : (s.writeBS r b).faultInfo = s.faultInfo := rfl
@[simp] theorem writeBS_params : (s.writeBS r b).params = s.params := rfl
@[simp] theorem writeBS_nanDraws : (s.writeBS r b).nanDraws = s.nanDraws := rfl
@[simp] theorem writeBS_hostIn : (s.writeBS r b).hostIn = s.hostIn := rfl
@[simp] theorem writeBS_hostOut : (s.writeBS r b).hostOut = s.hostOut := rfl
@[simp] theorem writeBS_descriptor (j : Nat) : (s.writeBS r b).descriptor j = s.descriptor j := rfl
@[simp] theorem writeBS_defaultValue (j : Nat) : (s.writeBS r b).defaultValue j = s.defaultValue j := rfl
@[simp] theorem writeBS_fieldValue (j : Nat) : (s.writeBS r b).fieldValue j = s.fieldValue j := rfl
@[simp] theorem writeBS_remaining : (s.writeBS r b).remaining = s.remaining := rfl

end WriteBS

/-! ### `setRes` -/

section SetRes

variable (s : State) (v : DataWord)

@[simp] theorem setRes_bs : (s.setRes v).bs = s.bs := rfl
@[simp] theorem setRes_wBuf : (s.setRes v).wBuf = s.wBuf := rfl
@[simp] theorem setRes_rSrc : (s.setRes v).rSrc = s.rSrc := rfl
@[simp] theorem setRes_rPos : (s.setRes v).rPos = s.rPos := rfl
@[simp] theorem setRes_res : (s.setRes v).res = v := rfl
@[simp] theorem setRes_fdTag : (s.setRes v).fdTag = s.fdTag := rfl
@[simp] theorem setRes_fdLen : (s.setRes v).fdLen = s.fdLen := rfl
@[simp] theorem setRes_fdPstart : (s.setRes v).fdPstart = s.fdPstart := rfl
@[simp] theorem setRes_fdHvalid : (s.setRes v).fdHvalid = s.fdHvalid := rfl
@[simp] theorem setRes_fdConsumed : (s.setRes v).fdConsumed = s.fdConsumed := rfl
@[simp] theorem setRes_schTag : (s.setRes v).schTag = s.schTag := rfl
@[simp] theorem setRes_schNf : (s.setRes v).schNf = s.schNf := rfl
@[simp] theorem setRes_schFd : (s.setRes v).schFd = s.schFd := rfl
@[simp] theorem setRes_schDef : (s.setRes v).schDef = s.schDef := rfl
@[simp] theorem setRes_fv : (s.setRes v).fv = s.fv := rfl
@[simp] theorem setRes_i32Offset : (s.setRes v).i32Offset = s.i32Offset := rfl
@[simp] theorem setRes_lenpol : (s.setRes v).lenpol = s.lenpol := rfl
@[simp] theorem setRes_status : (s.setRes v).status = s.status := rfl
@[simp] theorem setRes_faultCmd : (s.setRes v).faultCmd = s.faultCmd := rfl
@[simp] theorem setRes_faultInfo : (s.setRes v).faultInfo = s.faultInfo := rfl
@[simp] theorem setRes_params : (s.setRes v).params = s.params := rfl
@[simp] theorem setRes_nanDraws : (s.setRes v).nanDraws = s.nanDraws := rfl
@[simp] theorem setRes_hostIn : (s.setRes v).hostIn = s.hostIn := rfl
@[simp] theorem setRes_hostOut : (s.setRes v).hostOut = s.hostOut := rfl
@[simp] theorem setRes_readBS (q : BsReg) : (s.setRes v).readBS q = s.readBS q := rfl
@[simp] theorem setRes_descriptor (j : Nat) : (s.setRes v).descriptor j = s.descriptor j := rfl
@[simp] theorem setRes_defaultValue (j : Nat) : (s.setRes v).defaultValue j = s.defaultValue j := rfl
@[simp] theorem setRes_fieldValue (j : Nat) : (s.setRes v).fieldValue j = s.fieldValue j := rfl
@[simp] theorem setRes_remaining : (s.setRes v).remaining = s.remaining := rfl

end SetRes

/-! ### `writeDescriptor` -/

section WriteDescriptor

variable (s : State) (i : Nat) (d : Descriptor)

@[simp] theorem writeDescriptor_bs : (s.writeDescriptor i d).bs = s.bs := rfl
@[simp] theorem writeDescriptor_wBuf : (s.writeDescriptor i d).wBuf = s.wBuf := rfl
@[simp] theorem writeDescriptor_rSrc : (s.writeDescriptor i d).rSrc = s.rSrc := rfl
@[simp] theorem writeDescriptor_rPos : (s.writeDescriptor i d).rPos = s.rPos := rfl
@[simp] theorem writeDescriptor_res : (s.writeDescriptor i d).res = s.res := rfl
@[simp] theorem writeDescriptor_fdTag : (s.writeDescriptor i d).fdTag = s.fdTag := rfl
@[simp] theorem writeDescriptor_fdLen : (s.writeDescriptor i d).fdLen = s.fdLen := rfl
@[simp] theorem writeDescriptor_fdPstart : (s.writeDescriptor i d).fdPstart = s.fdPstart := rfl
@[simp] theorem writeDescriptor_fdHvalid : (s.writeDescriptor i d).fdHvalid = s.fdHvalid := rfl
@[simp] theorem writeDescriptor_fdConsumed : (s.writeDescriptor i d).fdConsumed = s.fdConsumed := rfl
@[simp] theorem writeDescriptor_schTag : (s.writeDescriptor i d).schTag = s.schTag := rfl
@[simp] theorem writeDescriptor_schNf : (s.writeDescriptor i d).schNf = s.schNf := rfl
@[simp] theorem writeDescriptor_schFd : (s.writeDescriptor i d).schFd = s.schFd.set i d := rfl
@[simp] theorem writeDescriptor_schDef : (s.writeDescriptor i d).schDef = s.schDef := rfl
@[simp] theorem writeDescriptor_fv : (s.writeDescriptor i d).fv = s.fv := rfl
@[simp] theorem writeDescriptor_i32Offset : (s.writeDescriptor i d).i32Offset = s.i32Offset := rfl
@[simp] theorem writeDescriptor_lenpol : (s.writeDescriptor i d).lenpol = s.lenpol := rfl
@[simp] theorem writeDescriptor_status : (s.writeDescriptor i d).status = s.status := rfl
@[simp] theorem writeDescriptor_faultCmd : (s.writeDescriptor i d).faultCmd = s.faultCmd := rfl
@[simp] theorem writeDescriptor_faultInfo : (s.writeDescriptor i d).faultInfo = s.faultInfo := rfl
@[simp] theorem writeDescriptor_params : (s.writeDescriptor i d).params = s.params := rfl
@[simp] theorem writeDescriptor_nanDraws : (s.writeDescriptor i d).nanDraws = s.nanDraws := rfl
@[simp] theorem writeDescriptor_hostIn : (s.writeDescriptor i d).hostIn = s.hostIn := rfl
@[simp] theorem writeDescriptor_hostOut : (s.writeDescriptor i d).hostOut = s.hostOut := rfl
@[simp] theorem writeDescriptor_readBS (q : BsReg) : (s.writeDescriptor i d).readBS q = s.readBS q := rfl
@[simp] theorem writeDescriptor_defaultValue (j : Nat) : (s.writeDescriptor i d).defaultValue j = s.defaultValue j := rfl
@[simp] theorem writeDescriptor_fieldValue (j : Nat) : (s.writeDescriptor i d).fieldValue j = s.fieldValue j := rfl
@[simp] theorem writeDescriptor_remaining : (s.writeDescriptor i d).remaining = s.remaining := rfl

end WriteDescriptor

/-! ### `writeDefault` -/

section WriteDefault

variable (s : State) (i : Nat) (v : DataWord)

@[simp] theorem writeDefault_bs : (s.writeDefault i v).bs = s.bs := rfl
@[simp] theorem writeDefault_wBuf : (s.writeDefault i v).wBuf = s.wBuf := rfl
@[simp] theorem writeDefault_rSrc : (s.writeDefault i v).rSrc = s.rSrc := rfl
@[simp] theorem writeDefault_rPos : (s.writeDefault i v).rPos = s.rPos := rfl
@[simp] theorem writeDefault_res : (s.writeDefault i v).res = s.res := rfl
@[simp] theorem writeDefault_fdTag : (s.writeDefault i v).fdTag = s.fdTag := rfl
@[simp] theorem writeDefault_fdLen : (s.writeDefault i v).fdLen = s.fdLen := rfl
@[simp] theorem writeDefault_fdPstart : (s.writeDefault i v).fdPstart = s.fdPstart := rfl
@[simp] theorem writeDefault_fdHvalid : (s.writeDefault i v).fdHvalid = s.fdHvalid := rfl
@[simp] theorem writeDefault_fdConsumed : (s.writeDefault i v).fdConsumed = s.fdConsumed := rfl
@[simp] theorem writeDefault_schTag : (s.writeDefault i v).schTag = s.schTag := rfl
@[simp] theorem writeDefault_schNf : (s.writeDefault i v).schNf = s.schNf := rfl
@[simp] theorem writeDefault_schFd : (s.writeDefault i v).schFd = s.schFd := rfl
@[simp] theorem writeDefault_schDef : (s.writeDefault i v).schDef = s.schDef.set i v := rfl
@[simp] theorem writeDefault_fv : (s.writeDefault i v).fv = s.fv := rfl
@[simp] theorem writeDefault_i32Offset : (s.writeDefault i v).i32Offset = s.i32Offset := rfl
@[simp] theorem writeDefault_lenpol : (s.writeDefault i v).lenpol = s.lenpol := rfl
@[simp] theorem writeDefault_status : (s.writeDefault i v).status = s.status := rfl
@[simp] theorem writeDefault_faultCmd : (s.writeDefault i v).faultCmd = s.faultCmd := rfl
@[simp] theorem writeDefault_faultInfo : (s.writeDefault i v).faultInfo = s.faultInfo := rfl
@[simp] theorem writeDefault_params : (s.writeDefault i v).params = s.params := rfl
@[simp] theorem writeDefault_nanDraws : (s.writeDefault i v).nanDraws = s.nanDraws := rfl
@[simp] theorem writeDefault_hostIn : (s.writeDefault i v).hostIn = s.hostIn := rfl
@[simp] theorem writeDefault_hostOut : (s.writeDefault i v).hostOut = s.hostOut := rfl
@[simp] theorem writeDefault_readBS (q : BsReg) : (s.writeDefault i v).readBS q = s.readBS q := rfl
@[simp] theorem writeDefault_descriptor (j : Nat) : (s.writeDefault i v).descriptor j = s.descriptor j := rfl
@[simp] theorem writeDefault_fieldValue (j : Nat) : (s.writeDefault i v).fieldValue j = s.fieldValue j := rfl
@[simp] theorem writeDefault_remaining : (s.writeDefault i v).remaining = s.remaining := rfl

end WriteDefault

/-! ### `writeFieldValue` -/

section WriteFieldValue

variable (s : State) (i : Nat) (v : DataWord)

@[simp] theorem writeFieldValue_bs : (s.writeFieldValue i v).bs = s.bs := rfl
@[simp] theorem writeFieldValue_wBuf : (s.writeFieldValue i v).wBuf = s.wBuf := rfl
@[simp] theorem writeFieldValue_rSrc : (s.writeFieldValue i v).rSrc = s.rSrc := rfl
@[simp] theorem writeFieldValue_rPos : (s.writeFieldValue i v).rPos = s.rPos := rfl
@[simp] theorem writeFieldValue_res : (s.writeFieldValue i v).res = s.res := rfl
@[simp] theorem writeFieldValue_fdTag : (s.writeFieldValue i v).fdTag = s.fdTag := rfl
@[simp] theorem writeFieldValue_fdLen : (s.writeFieldValue i v).fdLen = s.fdLen := rfl
@[simp] theorem writeFieldValue_fdPstart : (s.writeFieldValue i v).fdPstart = s.fdPstart := rfl
@[simp] theorem writeFieldValue_fdHvalid : (s.writeFieldValue i v).fdHvalid = s.fdHvalid := rfl
@[simp] theorem writeFieldValue_fdConsumed : (s.writeFieldValue i v).fdConsumed = s.fdConsumed := rfl
@[simp] theorem writeFieldValue_schTag : (s.writeFieldValue i v).schTag = s.schTag := rfl
@[simp] theorem writeFieldValue_schNf : (s.writeFieldValue i v).schNf = s.schNf := rfl
@[simp] theorem writeFieldValue_schFd : (s.writeFieldValue i v).schFd = s.schFd := rfl
@[simp] theorem writeFieldValue_schDef : (s.writeFieldValue i v).schDef = s.schDef := rfl
@[simp] theorem writeFieldValue_fv : (s.writeFieldValue i v).fv = s.fv.set i v := rfl
@[simp] theorem writeFieldValue_i32Offset : (s.writeFieldValue i v).i32Offset = s.i32Offset := rfl
@[simp] theorem writeFieldValue_lenpol : (s.writeFieldValue i v).lenpol = s.lenpol := rfl
@[simp] theorem writeFieldValue_status : (s.writeFieldValue i v).status = s.status := rfl
@[simp] theorem writeFieldValue_faultCmd : (s.writeFieldValue i v).faultCmd = s.faultCmd := rfl
@[simp] theorem writeFieldValue_faultInfo : (s.writeFieldValue i v).faultInfo = s.faultInfo := rfl
@[simp] theorem writeFieldValue_params : (s.writeFieldValue i v).params = s.params := rfl
@[simp] theorem writeFieldValue_nanDraws : (s.writeFieldValue i v).nanDraws = s.nanDraws := rfl
@[simp] theorem writeFieldValue_hostIn : (s.writeFieldValue i v).hostIn = s.hostIn := rfl
@[simp] theorem writeFieldValue_hostOut : (s.writeFieldValue i v).hostOut = s.hostOut := rfl
@[simp] theorem writeFieldValue_readBS (q : BsReg) : (s.writeFieldValue i v).readBS q = s.readBS q := rfl
@[simp] theorem writeFieldValue_descriptor (j : Nat) : (s.writeFieldValue i v).descriptor j = s.descriptor j := rfl
@[simp] theorem writeFieldValue_defaultValue (j : Nat) : (s.writeFieldValue i v).defaultValue j = s.defaultValue j := rfl
@[simp] theorem writeFieldValue_remaining : (s.writeFieldValue i v).remaining = s.remaining := rfl

end WriteFieldValue

/-! ### `clearLatch` -/

section ClearLatch

variable (s : State)

@[simp] theorem clearLatch_bs : (s.clearLatch).bs = s.bs := rfl
@[simp] theorem clearLatch_wBuf : (s.clearLatch).wBuf = s.wBuf := rfl
@[simp] theorem clearLatch_rSrc : (s.clearLatch).rSrc = s.rSrc := rfl
@[simp] theorem clearLatch_rPos : (s.clearLatch).rPos = s.rPos := rfl
@[simp] theorem clearLatch_res : (s.clearLatch).res = s.res := rfl
@[simp] theorem clearLatch_fdTag : (s.clearLatch).fdTag = s.fdTag := rfl
@[simp] theorem clearLatch_fdLen : (s.clearLatch).fdLen = s.fdLen := rfl
@[simp] theorem clearLatch_fdPstart : (s.clearLatch).fdPstart = s.fdPstart := rfl
@[simp] theorem clearLatch_fdHvalid : (s.clearLatch).fdHvalid = false := rfl
@[simp] theorem clearLatch_fdConsumed : (s.clearLatch).fdConsumed = s.fdConsumed := rfl
@[simp] theorem clearLatch_schTag : (s.clearLatch).schTag = s.schTag := rfl
@[simp] theorem clearLatch_schNf : (s.clearLatch).schNf = s.schNf := rfl
@[simp] theorem clearLatch_schFd : (s.clearLatch).schFd = s.schFd := rfl
@[simp] theorem clearLatch_schDef : (s.clearLatch).schDef = s.schDef := rfl
@[simp] theorem clearLatch_fv : (s.clearLatch).fv = s.fv := rfl
@[simp] theorem clearLatch_i32Offset : (s.clearLatch).i32Offset = s.i32Offset := rfl
@[simp] theorem clearLatch_lenpol : (s.clearLatch).lenpol = s.lenpol := rfl
@[simp] theorem clearLatch_status : (s.clearLatch).status = s.status := rfl
@[simp] theorem clearLatch_faultCmd : (s.clearLatch).faultCmd = s.faultCmd := rfl
@[simp] theorem clearLatch_faultInfo : (s.clearLatch).faultInfo = s.faultInfo := rfl
@[simp] theorem clearLatch_params : (s.clearLatch).params = s.params := rfl
@[simp] theorem clearLatch_nanDraws : (s.clearLatch).nanDraws = s.nanDraws := rfl
@[simp] theorem clearLatch_hostIn : (s.clearLatch).hostIn = s.hostIn := rfl
@[simp] theorem clearLatch_hostOut : (s.clearLatch).hostOut = s.hostOut := rfl
@[simp] theorem clearLatch_readBS (q : BsReg) : (s.clearLatch).readBS q = s.readBS q := rfl
@[simp] theorem clearLatch_descriptor (j : Nat) : (s.clearLatch).descriptor j = s.descriptor j := rfl
@[simp] theorem clearLatch_defaultValue (j : Nat) : (s.clearLatch).defaultValue j = s.defaultValue j := rfl
@[simp] theorem clearLatch_fieldValue (j : Nat) : (s.clearLatch).fieldValue j = s.fieldValue j := rfl
@[simp] theorem clearLatch_remaining : (s.clearLatch).remaining = s.remaining := rfl

end ClearLatch

/-! ### `useDraw` -/

section UseDraw

variable (s : State) (k : Kind)

@[simp] theorem useDraw_bs : (s.useDraw k).bs = s.bs := rfl
@[simp] theorem useDraw_wBuf : (s.useDraw k).wBuf = s.wBuf := rfl
@[simp] theorem useDraw_rSrc : (s.useDraw k).rSrc = s.rSrc := rfl
@[simp] theorem useDraw_rPos : (s.useDraw k).rPos = s.rPos := rfl
@[simp] theorem useDraw_res : (s.useDraw k).res = s.res := rfl
@[simp] theorem useDraw_fdTag : (s.useDraw k).fdTag = s.fdTag := rfl
@[simp] theorem useDraw_fdLen : (s.useDraw k).fdLen = s.fdLen := rfl
@[simp] theorem useDraw_fdPstart : (s.useDraw k).fdPstart = s.fdPstart := rfl
@[simp] theorem useDraw_fdHvalid : (s.useDraw k).fdHvalid = s.fdHvalid := rfl
@[simp] theorem useDraw_fdConsumed : (s.useDraw k).fdConsumed = s.fdConsumed := rfl
@[simp] theorem useDraw_schTag : (s.useDraw k).schTag = s.schTag := rfl
@[simp] theorem useDraw_schNf : (s.useDraw k).schNf = s.schNf := rfl
@[simp] theorem useDraw_schFd : (s.useDraw k).schFd = s.schFd := rfl
@[simp] theorem useDraw_schDef : (s.useDraw k).schDef = s.schDef := rfl
@[simp] theorem useDraw_fv : (s.useDraw k).fv = s.fv := rfl
@[simp] theorem useDraw_i32Offset : (s.useDraw k).i32Offset = s.i32Offset := rfl
@[simp] theorem useDraw_lenpol : (s.useDraw k).lenpol = s.lenpol := rfl
@[simp] theorem useDraw_status : (s.useDraw k).status = s.status := rfl
@[simp] theorem useDraw_faultCmd : (s.useDraw k).faultCmd = s.faultCmd := rfl
@[simp] theorem useDraw_faultInfo : (s.useDraw k).faultInfo = s.faultInfo := rfl
@[simp] theorem useDraw_params : (s.useDraw k).params = s.params := rfl
@[simp] theorem useDraw_nanDraws : (s.useDraw k).nanDraws = s.nanDraws + drawsOf k := rfl
@[simp] theorem useDraw_hostIn : (s.useDraw k).hostIn = s.hostIn := rfl
@[simp] theorem useDraw_hostOut : (s.useDraw k).hostOut = s.hostOut := rfl
@[simp] theorem useDraw_readBS (q : BsReg) : (s.useDraw k).readBS q = s.readBS q := rfl
@[simp] theorem useDraw_descriptor (j : Nat) : (s.useDraw k).descriptor j = s.descriptor j := rfl
@[simp] theorem useDraw_defaultValue (j : Nat) : (s.useDraw k).defaultValue j = s.defaultValue j := rfl
@[simp] theorem useDraw_fieldValue (j : Nat) : (s.useDraw k).fieldValue j = s.fieldValue j := rfl
@[simp] theorem useDraw_remaining : (s.useDraw k).remaining = s.remaining := rfl

end UseDraw

/-! ### `respond` -/

section Respond

variable (s : State) (x : List Byte)

@[simp] theorem respond_bs : (s.respond x).bs = s.bs := rfl
@[simp] theorem respond_wBuf : (s.respond x).wBuf = s.wBuf := rfl
@[simp] theorem respond_rSrc : (s.respond x).rSrc = s.rSrc := rfl
@[simp] theorem respond_rPos : (s.respond x).rPos = s.rPos := rfl
@[simp] theorem respond_res : (s.respond x).res = s.res := rfl
@[simp] theorem respond_fdTag : (s.respond x).fdTag = s.fdTag := rfl
@[simp] theorem respond_fdLen : (s.respond x).fdLen = s.fdLen := rfl
@[simp] theorem respond_fdPstart : (s.respond x).fdPstart = s.fdPstart := rfl
@[simp] theorem respond_fdHvalid : (s.respond x).fdHvalid = s.fdHvalid := rfl
@[simp] theorem respond_fdConsumed : (s.respond x).fdConsumed = s.fdConsumed := rfl
@[simp] theorem respond_schTag : (s.respond x).schTag = s.schTag := rfl
@[simp] theorem respond_schNf : (s.respond x).schNf = s.schNf := rfl
@[simp] theorem respond_schFd : (s.respond x).schFd = s.schFd := rfl
@[simp] theorem respond_schDef : (s.respond x).schDef = s.schDef := rfl
@[simp] theorem respond_fv : (s.respond x).fv = s.fv := rfl
@[simp] theorem respond_i32Offset : (s.respond x).i32Offset = s.i32Offset := rfl
@[simp] theorem respond_lenpol : (s.respond x).lenpol = s.lenpol := rfl
@[simp] theorem respond_status : (s.respond x).status = s.status := rfl
@[simp] theorem respond_faultCmd : (s.respond x).faultCmd = s.faultCmd := rfl
@[simp] theorem respond_faultInfo : (s.respond x).faultInfo = s.faultInfo := rfl
@[simp] theorem respond_params : (s.respond x).params = s.params := rfl
@[simp] theorem respond_nanDraws : (s.respond x).nanDraws = s.nanDraws := rfl
@[simp] theorem respond_hostIn : (s.respond x).hostIn = s.hostIn := rfl
@[simp] theorem respond_hostOut : (s.respond x).hostOut = s.hostOut ++ [⟨false, none, s.res, x⟩] := rfl
@[simp] theorem respond_readBS (q : BsReg) : (s.respond x).readBS q = s.readBS q := rfl
@[simp] theorem respond_descriptor (j : Nat) : (s.respond x).descriptor j = s.descriptor j := rfl
@[simp] theorem respond_defaultValue (j : Nat) : (s.respond x).defaultValue j = s.defaultValue j := rfl
@[simp] theorem respond_fieldValue (j : Nat) : (s.respond x).fieldValue j = s.fieldValue j := rfl
@[simp] theorem respond_remaining : (s.respond x).remaining = s.remaining := rfl

end Respond

/-! ### `takeFault` -/

section TakeFault

variable (s : State) (cw : CommandWord) (r : Raise)

@[simp] theorem takeFault_bs : (s.takeFault cw r).bs = s.bs := rfl
@[simp] theorem takeFault_wBuf : (s.takeFault cw r).wBuf = s.wBuf := rfl
@[simp] theorem takeFault_rSrc : (s.takeFault cw r).rSrc = s.rSrc := rfl
@[simp] theorem takeFault_rPos : (s.takeFault cw r).rPos = s.rPos := rfl
@[simp] theorem takeFault_res : (s.takeFault cw r).res = s.res := rfl
@[simp] theorem takeFault_fdTag : (s.takeFault cw r).fdTag = s.fdTag := rfl
@[simp] theorem takeFault_fdLen : (s.takeFault cw r).fdLen = s.fdLen := rfl
@[simp] theorem takeFault_fdPstart : (s.takeFault cw r).fdPstart = s.fdPstart := rfl
@[simp] theorem takeFault_fdHvalid : (s.takeFault cw r).fdHvalid = s.fdHvalid := rfl
@[simp] theorem takeFault_fdConsumed : (s.takeFault cw r).fdConsumed = s.fdConsumed := rfl
@[simp] theorem takeFault_schTag : (s.takeFault cw r).schTag = s.schTag := rfl
@[simp] theorem takeFault_schNf : (s.takeFault cw r).schNf = s.schNf := rfl
@[simp] theorem takeFault_schFd : (s.takeFault cw r).schFd = s.schFd := rfl
@[simp] theorem takeFault_schDef : (s.takeFault cw r).schDef = s.schDef := rfl
@[simp] theorem takeFault_fv : (s.takeFault cw r).fv = s.fv := rfl
@[simp] theorem takeFault_i32Offset : (s.takeFault cw r).i32Offset = s.i32Offset := rfl
@[simp] theorem takeFault_lenpol : (s.takeFault cw r).lenpol = s.lenpol := rfl
@[simp] theorem takeFault_status : (s.takeFault cw r).status = s.status.recordFault r.cause := rfl
@[simp] theorem takeFault_faultCmd : (s.takeFault cw r).faultCmd = cw := rfl
@[simp] theorem takeFault_faultInfo : (s.takeFault cw r).faultInfo = r.info := rfl
@[simp] theorem takeFault_params : (s.takeFault cw r).params = s.params := rfl
@[simp] theorem takeFault_nanDraws : (s.takeFault cw r).nanDraws = s.nanDraws := rfl
@[simp] theorem takeFault_hostIn : (s.takeFault cw r).hostIn = s.hostIn := rfl
@[simp] theorem takeFault_hostOut : (s.takeFault cw r).hostOut = s.hostOut ++ [⟨true, some r.cause, s.res, []⟩] := rfl
@[simp] theorem takeFault_readBS (q : BsReg) : (s.takeFault cw r).readBS q = s.readBS q := rfl
@[simp] theorem takeFault_descriptor (j : Nat) : (s.takeFault cw r).descriptor j = s.descriptor j := rfl
@[simp] theorem takeFault_defaultValue (j : Nat) : (s.takeFault cw r).defaultValue j = s.defaultValue j := rfl
@[simp] theorem takeFault_fieldValue (j : Nat) : (s.takeFault cw r).fieldValue j = s.fieldValue j := rfl
@[simp] theorem takeFault_remaining : (s.takeFault cw r).remaining = s.remaining := rfl

end TakeFault

/-! ### `acknowledge` -/

section Acknowledge

variable (s : State)

@[simp] theorem acknowledge_bs : (s.acknowledge).bs = s.bs := rfl
@[simp] theorem acknowledge_wBuf : (s.acknowledge).wBuf = s.wBuf := rfl
@[simp] theorem acknowledge_rSrc : (s.acknowledge).rSrc = s.rSrc := rfl
@[simp] theorem acknowledge_rPos : (s.acknowledge).rPos = s.rPos := rfl
@[simp] theorem acknowledge_res : (s.acknowledge).res = s.res := rfl
@[simp] theorem acknowledge_fdTag : (s.acknowledge).fdTag = s.fdTag := rfl
@[simp] theorem acknowledge_fdLen : (s.acknowledge).fdLen = s.fdLen := rfl
@[simp] theorem acknowledge_fdPstart : (s.acknowledge).fdPstart = s.fdPstart := rfl
@[simp] theorem acknowledge_fdHvalid : (s.acknowledge).fdHvalid = s.fdHvalid := rfl
@[simp] theorem acknowledge_fdConsumed : (s.acknowledge).fdConsumed = s.fdConsumed := rfl
@[simp] theorem acknowledge_schTag : (s.acknowledge).schTag = s.schTag := rfl
@[simp] theorem acknowledge_schNf : (s.acknowledge).schNf = s.schNf := rfl
@[simp] theorem acknowledge_schFd : (s.acknowledge).schFd = s.schFd := rfl
@[simp] theorem acknowledge_schDef : (s.acknowledge).schDef = s.schDef := rfl
@[simp] theorem acknowledge_fv : (s.acknowledge).fv = s.fv := rfl
@[simp] theorem acknowledge_i32Offset : (s.acknowledge).i32Offset = s.i32Offset := rfl
@[simp] theorem acknowledge_lenpol : (s.acknowledge).lenpol = s.lenpol := rfl
@[simp] theorem acknowledge_status : (s.acknowledge).status = Status.clear := rfl
@[simp] theorem acknowledge_faultCmd : (s.acknowledge).faultCmd = 0 := rfl
@[simp] theorem acknowledge_faultInfo : (s.acknowledge).faultInfo = 0 := rfl
@[simp] theorem acknowledge_params : (s.acknowledge).params = s.params := rfl
@[simp] theorem acknowledge_nanDraws : (s.acknowledge).nanDraws = s.nanDraws := rfl
@[simp] theorem acknowledge_hostIn : (s.acknowledge).hostIn = s.hostIn := rfl
@[simp] theorem acknowledge_hostOut : (s.acknowledge).hostOut = s.hostOut := rfl
@[simp] theorem acknowledge_readBS (q : BsReg) : (s.acknowledge).readBS q = s.readBS q := rfl
@[simp] theorem acknowledge_descriptor (j : Nat) : (s.acknowledge).descriptor j = s.descriptor j := rfl
@[simp] theorem acknowledge_defaultValue (j : Nat) : (s.acknowledge).defaultValue j = s.defaultValue j := rfl
@[simp] theorem acknowledge_fieldValue (j : Nat) : (s.acknowledge).fieldValue j = s.fieldValue j := rfl
@[simp] theorem acknowledge_remaining : (s.acknowledge).remaining = s.remaining := rfl

end Acknowledge

/-! ### `clearWriter` -/

section ClearWriter

variable (s : State)

@[simp] theorem clearWriter_bs : (s.clearWriter).bs = s.bs := rfl
@[simp] theorem clearWriter_wBuf : (s.clearWriter).wBuf = [] := rfl
@[simp] theorem clearWriter_rSrc : (s.clearWriter).rSrc = s.rSrc := rfl
@[simp] theorem clearWriter_rPos : (s.clearWriter).rPos = s.rPos := rfl
@[simp] theorem clearWriter_res : (s.clearWriter).res = s.res := rfl
@[simp] theorem clearWriter_fdTag : (s.clearWriter).fdTag = s.fdTag := rfl
@[simp] theorem clearWriter_fdLen : (s.clearWriter).fdLen = s.fdLen := rfl
@[simp] theorem clearWriter_fdPstart : (s.clearWriter).fdPstart = s.fdPstart := rfl
@[simp] theorem clearWriter_fdHvalid : (s.clearWriter).fdHvalid = s.fdHvalid := rfl
@[simp] theorem clearWriter_fdConsumed : (s.clearWriter).fdConsumed = s.fdConsumed := rfl
@[simp] theorem clearWriter_schTag : (s.clearWriter).schTag = s.schTag := rfl
@[simp] theorem clearWriter_schNf : (s.clearWriter).schNf = s.schNf := rfl
@[simp] theorem clearWriter_schFd : (s.clearWriter).schFd = s.schFd := rfl
@[simp] theorem clearWriter_schDef : (s.clearWriter).schDef = s.schDef := rfl
@[simp] theorem clearWriter_fv : (s.clearWriter).fv = s.fv := rfl
@[simp] theorem clearWriter_i32Offset : (s.clearWriter).i32Offset = s.i32Offset := rfl
@[simp] theorem clearWriter_lenpol : (s.clearWriter).lenpol = s.lenpol := rfl
@[simp] theorem clearWriter_status : (s.clearWriter).status = s.status := rfl
@[simp] theorem clearWriter_faultCmd : (s.clearWriter).faultCmd = s.faultCmd := rfl
@[simp] theorem clearWriter_faultInfo : (s.clearWriter).faultInfo = s.faultInfo := rfl
@[simp] theorem clearWriter_params : (s.clearWriter).params = s.params := rfl
@[simp] theorem clearWriter_nanDraws : (s.clearWriter).nanDraws = s.nanDraws := rfl
@[simp] theorem clearWriter_hostIn : (s.clearWriter).hostIn = s.hostIn := rfl
@[simp] theorem clearWriter_hostOut : (s.clearWriter).hostOut = s.hostOut := rfl
@[simp] theorem clearWriter_readBS (q : BsReg) : (s.clearWriter).readBS q = s.readBS q := rfl
@[simp] theorem clearWriter_descriptor (j : Nat) : (s.clearWriter).descriptor j = s.descriptor j := rfl
@[simp] theorem clearWriter_defaultValue (j : Nat) : (s.clearWriter).defaultValue j = s.defaultValue j := rfl
@[simp] theorem clearWriter_fieldValue (j : Nat) : (s.clearWriter).fieldValue j = s.fieldValue j := rfl
@[simp] theorem clearWriter_remaining : (s.clearWriter).remaining = s.remaining := rfl

end ClearWriter

/-! ### `loadReader` -/

section LoadReader

variable (s : State) (b : BitString)

@[simp] theorem loadReader_bs : (s.loadReader b).bs = s.bs := rfl
@[simp] theorem loadReader_wBuf : (s.loadReader b).wBuf = s.wBuf := rfl
@[simp] theorem loadReader_rSrc : (s.loadReader b).rSrc = b := rfl
@[simp] theorem loadReader_rPos : (s.loadReader b).rPos = 0 := rfl
@[simp] theorem loadReader_res : (s.loadReader b).res = s.res := rfl
@[simp] theorem loadReader_fdTag : (s.loadReader b).fdTag = s.fdTag := rfl
@[simp] theorem loadReader_fdLen : (s.loadReader b).fdLen = s.fdLen := rfl
@[simp] theorem loadReader_fdPstart : (s.loadReader b).fdPstart = s.fdPstart := rfl
@[simp] theorem loadReader_fdHvalid : (s.loadReader b).fdHvalid = s.fdHvalid := rfl
@[simp] theorem loadReader_fdConsumed : (s.loadReader b).fdConsumed = s.fdConsumed := rfl
@[simp] theorem loadReader_schTag : (s.loadReader b).schTag = s.schTag := rfl
@[simp] theorem loadReader_schNf : (s.loadReader b).schNf = s.schNf := rfl
@[simp] theorem loadReader_schFd : (s.loadReader b).schFd = s.schFd := rfl
@[simp] theorem loadReader_schDef : (s.loadReader b).schDef = s.schDef := rfl
@[simp] theorem loadReader_fv : (s.loadReader b).fv = s.fv := rfl
@[simp] theorem loadReader_i32Offset : (s.loadReader b).i32Offset = s.i32Offset := rfl
@[simp] theorem loadReader_lenpol : (s.loadReader b).lenpol = s.lenpol := rfl
@[simp] theorem loadReader_status : (s.loadReader b).status = s.status := rfl
@[simp] theorem loadReader_faultCmd : (s.loadReader b).faultCmd = s.faultCmd := rfl
@[simp] theorem loadReader_faultInfo : (s.loadReader b).faultInfo = s.faultInfo := rfl
@[simp] theorem loadReader_params : (s.loadReader b).params = s.params := rfl
@[simp] theorem loadReader_nanDraws : (s.loadReader b).nanDraws = s.nanDraws := rfl
@[simp] theorem loadReader_hostIn : (s.loadReader b).hostIn = s.hostIn := rfl
@[simp] theorem loadReader_hostOut : (s.loadReader b).hostOut = s.hostOut := rfl
@[simp] theorem loadReader_readBS (q : BsReg) : (s.loadReader b).readBS q = s.readBS q := rfl
@[simp] theorem loadReader_descriptor (j : Nat) : (s.loadReader b).descriptor j = s.descriptor j := rfl
@[simp] theorem loadReader_defaultValue (j : Nat) : (s.loadReader b).defaultValue j = s.defaultValue j := rfl
@[simp] theorem loadReader_fieldValue (j : Nat) : (s.loadReader b).fieldValue j = s.fieldValue j := rfl

end LoadReader

/-! ### `latchHeader` -/

section LatchHeader

variable (s : State) (h : BitString)

@[simp] theorem latchHeader_bs : (s.latchHeader h).bs = s.bs := rfl
@[simp] theorem latchHeader_wBuf : (s.latchHeader h).wBuf = s.wBuf := rfl
@[simp] theorem latchHeader_rSrc : (s.latchHeader h).rSrc = s.rSrc := rfl
@[simp] theorem latchHeader_rPos : (s.latchHeader h).rPos = s.rPos := rfl
@[simp] theorem latchHeader_res : (s.latchHeader h).res = s.res := rfl
@[simp] theorem latchHeader_fdTag : (s.latchHeader h).fdTag = BitVec.ofNat 32 (uval (slice h 0 32)) := rfl
@[simp] theorem latchHeader_fdLen : (s.latchHeader h).fdLen = BitVec.ofNat 32 (uval (slice h 32 32)) := rfl
@[simp] theorem latchHeader_fdPstart : (s.latchHeader h).fdPstart = BitVec.ofNat 32 s.rPos := rfl
@[simp] theorem latchHeader_fdHvalid : (s.latchHeader h).fdHvalid = true := rfl
@[simp] theorem latchHeader_fdConsumed : (s.latchHeader h).fdConsumed = s.fdConsumed := rfl
@[simp] theorem latchHeader_schTag : (s.latchHeader h).schTag = s.schTag := rfl
@[simp] theorem latchHeader_schNf : (s.latchHeader h).schNf = s.schNf := rfl
@[simp] theorem latchHeader_schFd : (s.latchHeader h).schFd = s.schFd := rfl
@[simp] theorem latchHeader_schDef : (s.latchHeader h).schDef = s.schDef := rfl
@[simp] theorem latchHeader_fv : (s.latchHeader h).fv = s.fv := rfl
@[simp] theorem latchHeader_i32Offset : (s.latchHeader h).i32Offset = s.i32Offset := rfl
@[simp] theorem latchHeader_lenpol : (s.latchHeader h).lenpol = s.lenpol := rfl
@[simp] theorem latchHeader_status : (s.latchHeader h).status = s.status := rfl
@[simp] theorem latchHeader_faultCmd : (s.latchHeader h).faultCmd = s.faultCmd := rfl
@[simp] theorem latchHeader_faultInfo : (s.latchHeader h).faultInfo = s.faultInfo := rfl
@[simp] theorem latchHeader_params : (s.latchHeader h).params = s.params := rfl
@[simp] theorem latchHeader_nanDraws : (s.latchHeader h).nanDraws = s.nanDraws := rfl
@[simp] theorem latchHeader_hostIn : (s.latchHeader h).hostIn = s.hostIn := rfl
@[simp] theorem latchHeader_hostOut : (s.latchHeader h).hostOut = s.hostOut := rfl
@[simp] theorem latchHeader_readBS (q : BsReg) : (s.latchHeader h).readBS q = s.readBS q := rfl
@[simp] theorem latchHeader_descriptor (j : Nat) : (s.latchHeader h).descriptor j = s.descriptor j := rfl
@[simp] theorem latchHeader_defaultValue (j : Nat) : (s.latchHeader h).defaultValue j = s.defaultValue j := rfl
@[simp] theorem latchHeader_fieldValue (j : Nat) : (s.latchHeader h).fieldValue j = s.fieldValue j := rfl
@[simp] theorem latchHeader_remaining : (s.latchHeader h).remaining = s.remaining := rfl

end LatchHeader

/-! ### `flagUnder` -/

section FlagUnder

variable (s : State)

@[simp] theorem flagUnder_bs : (s.flagUnder).bs = s.bs := rfl
@[simp] theorem flagUnder_wBuf : (s.flagUnder).wBuf = s.wBuf := rfl
@[simp] theorem flagUnder_rSrc : (s.flagUnder).rSrc = s.rSrc := rfl
@[simp] theorem flagUnder_rPos : (s.flagUnder).rPos = s.rPos := rfl
@[simp] theorem flagUnder_res : (s.flagUnder).res = s.res := rfl
@[simp] theorem flagUnder_fdTag : (s.flagUnder).fdTag = s.fdTag := rfl
@[simp] theorem flagUnder_fdLen : (s.flagUnder).fdLen = s.fdLen := rfl
@[simp] theorem flagUnder_fdPstart : (s.flagUnder).fdPstart = s.fdPstart := rfl
@[simp] theorem flagUnder_fdHvalid : (s.flagUnder).fdHvalid = s.fdHvalid := rfl
@[simp] theorem flagUnder_fdConsumed : (s.flagUnder).fdConsumed = s.fdConsumed := rfl
@[simp] theorem flagUnder_schTag : (s.flagUnder).schTag = s.schTag := rfl
@[simp] theorem flagUnder_schNf : (s.flagUnder).schNf = s.schNf := rfl
@[simp] theorem flagUnder_schFd : (s.flagUnder).schFd = s.schFd := rfl
@[simp] theorem flagUnder_schDef : (s.flagUnder).schDef = s.schDef := rfl
@[simp] theorem flagUnder_fv : (s.flagUnder).fv = s.fv := rfl
@[simp] theorem flagUnder_i32Offset : (s.flagUnder).i32Offset = s.i32Offset := rfl
@[simp] theorem flagUnder_lenpol : (s.flagUnder).lenpol = s.lenpol := rfl
@[simp] theorem flagUnder_status : (s.flagUnder).status = s.status.setUnder := rfl
@[simp] theorem flagUnder_faultCmd : (s.flagUnder).faultCmd = s.faultCmd := rfl
@[simp] theorem flagUnder_faultInfo : (s.flagUnder).faultInfo = s.faultInfo := rfl
@[simp] theorem flagUnder_params : (s.flagUnder).params = s.params := rfl
@[simp] theorem flagUnder_nanDraws : (s.flagUnder).nanDraws = s.nanDraws := rfl
@[simp] theorem flagUnder_hostIn : (s.flagUnder).hostIn = s.hostIn := rfl
@[simp] theorem flagUnder_hostOut : (s.flagUnder).hostOut = s.hostOut := rfl
@[simp] theorem flagUnder_readBS (q : BsReg) : (s.flagUnder).readBS q = s.readBS q := rfl
@[simp] theorem flagUnder_descriptor (j : Nat) : (s.flagUnder).descriptor j = s.descriptor j := rfl
@[simp] theorem flagUnder_defaultValue (j : Nat) : (s.flagUnder).defaultValue j = s.defaultValue j := rfl
@[simp] theorem flagUnder_fieldValue (j : Nat) : (s.flagUnder).fieldValue j = s.fieldValue j := rfl
@[simp] theorem flagUnder_remaining : (s.flagUnder).remaining = s.remaining := rfl

end FlagUnder

/-! ### `flagOver` -/

section FlagOver

variable (s : State)

@[simp] theorem flagOver_bs : (s.flagOver).bs = s.bs := rfl
@[simp] theorem flagOver_wBuf : (s.flagOver).wBuf = s.wBuf := rfl
@[simp] theorem flagOver_rSrc : (s.flagOver).rSrc = s.rSrc := rfl
@[simp] theorem flagOver_rPos : (s.flagOver).rPos = s.rPos := rfl
@[simp] theorem flagOver_res : (s.flagOver).res = s.res := rfl
@[simp] theorem flagOver_fdTag : (s.flagOver).fdTag = s.fdTag := rfl
@[simp] theorem flagOver_fdLen : (s.flagOver).fdLen = s.fdLen := rfl
@[simp] theorem flagOver_fdPstart : (s.flagOver).fdPstart = s.fdPstart := rfl
@[simp] theorem flagOver_fdHvalid : (s.flagOver).fdHvalid = s.fdHvalid := rfl
@[simp] theorem flagOver_fdConsumed : (s.flagOver).fdConsumed = s.fdConsumed := rfl
@[simp] theorem flagOver_schTag : (s.flagOver).schTag = s.schTag := rfl
@[simp] theorem flagOver_schNf : (s.flagOver).schNf = s.schNf := rfl
@[simp] theorem flagOver_schFd : (s.flagOver).schFd = s.schFd := rfl
@[simp] theorem flagOver_schDef : (s.flagOver).schDef = s.schDef := rfl
@[simp] theorem flagOver_fv : (s.flagOver).fv = s.fv := rfl
@[simp] theorem flagOver_i32Offset : (s.flagOver).i32Offset = s.i32Offset := rfl
@[simp] theorem flagOver_lenpol : (s.flagOver).lenpol = s.lenpol := rfl
@[simp] theorem flagOver_status : (s.flagOver).status = s.status.setOver := rfl
@[simp] theorem flagOver_faultCmd : (s.flagOver).faultCmd = s.faultCmd := rfl
@[simp] theorem flagOver_faultInfo : (s.flagOver).faultInfo = s.faultInfo := rfl
@[simp] theorem flagOver_params : (s.flagOver).params = s.params := rfl
@[simp] theorem flagOver_nanDraws : (s.flagOver).nanDraws = s.nanDraws := rfl
@[simp] theorem flagOver_hostIn : (s.flagOver).hostIn = s.hostIn := rfl
@[simp] theorem flagOver_hostOut : (s.flagOver).hostOut = s.hostOut := rfl
@[simp] theorem flagOver_readBS (q : BsReg) : (s.flagOver).readBS q = s.readBS q := rfl
@[simp] theorem flagOver_descriptor (j : Nat) : (s.flagOver).descriptor j = s.descriptor j := rfl
@[simp] theorem flagOver_defaultValue (j : Nat) : (s.flagOver).defaultValue j = s.defaultValue j := rfl
@[simp] theorem flagOver_fieldValue (j : Nat) : (s.flagOver).fieldValue j = s.fieldValue j := rfl
@[simp] theorem flagOver_remaining : (s.flagOver).remaining = s.remaining := rfl

end FlagOver

/-! ### `setConsumed` -/

section SetConsumed

variable (s : State) (c : Nat)

@[simp] theorem setConsumed_bs : (s.setConsumed c).bs = s.bs := rfl
@[simp] theorem setConsumed_wBuf : (s.setConsumed c).wBuf = s.wBuf := rfl
@[simp] theorem setConsumed_rSrc : (s.setConsumed c).rSrc = s.rSrc := rfl
@[simp] theorem setConsumed_rPos : (s.setConsumed c).rPos = s.rPos := rfl
@[simp] theorem setConsumed_res : (s.setConsumed c).res = s.res := rfl
@[simp] theorem setConsumed_fdTag : (s.setConsumed c).fdTag = s.fdTag := rfl
@[simp] theorem setConsumed_fdLen : (s.setConsumed c).fdLen = s.fdLen := rfl
@[simp] theorem setConsumed_fdPstart : (s.setConsumed c).fdPstart = s.fdPstart := rfl
@[simp] theorem setConsumed_fdHvalid : (s.setConsumed c).fdHvalid = s.fdHvalid := rfl
@[simp] theorem setConsumed_fdConsumed : (s.setConsumed c).fdConsumed = BitVec.ofNat 32 c := rfl
@[simp] theorem setConsumed_schTag : (s.setConsumed c).schTag = s.schTag := rfl
@[simp] theorem setConsumed_schNf : (s.setConsumed c).schNf = s.schNf := rfl
@[simp] theorem setConsumed_schFd : (s.setConsumed c).schFd = s.schFd := rfl
@[simp] theorem setConsumed_schDef : (s.setConsumed c).schDef = s.schDef := rfl
@[simp] theorem setConsumed_fv : (s.setConsumed c).fv = s.fv := rfl
@[simp] theorem setConsumed_i32Offset : (s.setConsumed c).i32Offset = s.i32Offset := rfl
@[simp] theorem setConsumed_lenpol : (s.setConsumed c).lenpol = s.lenpol := rfl
@[simp] theorem setConsumed_status : (s.setConsumed c).status = s.status := rfl
@[simp] theorem setConsumed_faultCmd : (s.setConsumed c).faultCmd = s.faultCmd := rfl
@[simp] theorem setConsumed_faultInfo : (s.setConsumed c).faultInfo = s.faultInfo := rfl
@[simp] theorem setConsumed_params : (s.setConsumed c).params = s.params := rfl
@[simp] theorem setConsumed_nanDraws : (s.setConsumed c).nanDraws = s.nanDraws := rfl
@[simp] theorem setConsumed_hostIn : (s.setConsumed c).hostIn = s.hostIn := rfl
@[simp] theorem setConsumed_hostOut : (s.setConsumed c).hostOut = s.hostOut := rfl
@[simp] theorem setConsumed_readBS (q : BsReg) : (s.setConsumed c).readBS q = s.readBS q := rfl
@[simp] theorem setConsumed_descriptor (j : Nat) : (s.setConsumed c).descriptor j = s.descriptor j := rfl
@[simp] theorem setConsumed_defaultValue (j : Nat) : (s.setConsumed c).defaultValue j = s.defaultValue j := rfl
@[simp] theorem setConsumed_fieldValue (j : Nat) : (s.setConsumed c).fieldValue j = s.fieldValue j := rfl
@[simp] theorem setConsumed_remaining : (s.setConsumed c).remaining = s.remaining := rfl

end SetConsumed

/-! ### `setHostIn` -/

section SetHostIn

variable (s : State) (rest : List HostEvent)

@[simp] theorem setHostIn_bs : (s.setHostIn rest).bs = s.bs := rfl
@[simp] theorem setHostIn_wBuf : (s.setHostIn rest).wBuf = s.wBuf := rfl
@[simp] theorem setHostIn_rSrc : (s.setHostIn rest).rSrc = s.rSrc := rfl
@[simp] theorem setHostIn_rPos : (s.setHostIn rest).rPos = s.rPos := rfl
@[simp] theorem setHostIn_res : (s.setHostIn rest).res = s.res := rfl
@[simp] theorem setHostIn_fdTag : (s.setHostIn rest).fdTag = s.fdTag := rfl
@[simp] theorem setHostIn_fdLen : (s.setHostIn rest).fdLen = s.fdLen := rfl
@[simp] theorem setHostIn_fdPstart : (s.setHostIn rest).fdPstart = s.fdPstart := rfl
@[simp] theorem setHostIn_fdHvalid : (s.setHostIn rest).fdHvalid = s.fdHvalid := rfl
@[simp] theorem setHostIn_fdConsumed : (s.setHostIn rest).fdConsumed = s.fdConsumed := rfl
@[simp] theorem setHostIn_schTag : (s.setHostIn rest).schTag = s.schTag := rfl
@[simp] theorem setHostIn_schNf : (s.setHostIn rest).schNf = s.schNf := rfl
@[simp] theorem setHostIn_schFd : (s.setHostIn rest).schFd = s.schFd := rfl
@[simp] theorem setHostIn_schDef : (s.setHostIn rest).schDef = s.schDef := rfl
@[simp] theorem setHostIn_fv : (s.setHostIn rest).fv = s.fv := rfl
@[simp] theorem setHostIn_i32Offset : (s.setHostIn rest).i32Offset = s.i32Offset := rfl
@[simp] theorem setHostIn_lenpol : (s.setHostIn rest).lenpol = s.lenpol := rfl
@[simp] theorem setHostIn_status : (s.setHostIn rest).status = s.status := rfl
@[simp] theorem setHostIn_faultCmd : (s.setHostIn rest).faultCmd = s.faultCmd := rfl
@[simp] theorem setHostIn_faultInfo : (s.setHostIn rest).faultInfo = s.faultInfo := rfl
@[simp] theorem setHostIn_params : (s.setHostIn rest).params = s.params := rfl
@[simp] theorem setHostIn_nanDraws : (s.setHostIn rest).nanDraws = s.nanDraws := rfl
@[simp] theorem setHostIn_hostIn : (s.setHostIn rest).hostIn = rest := rfl
@[simp] theorem setHostIn_hostOut : (s.setHostIn rest).hostOut = s.hostOut := rfl
@[simp] theorem setHostIn_readBS (q : BsReg) : (s.setHostIn rest).readBS q = s.readBS q := rfl
@[simp] theorem setHostIn_descriptor (j : Nat) : (s.setHostIn rest).descriptor j = s.descriptor j := rfl
@[simp] theorem setHostIn_defaultValue (j : Nat) : (s.setHostIn rest).defaultValue j = s.defaultValue j := rfl
@[simp] theorem setHostIn_fieldValue (j : Nat) : (s.setHostIn rest).fieldValue j = s.fieldValue j := rfl
@[simp] theorem setHostIn_remaining : (s.setHostIn rest).remaining = s.remaining := rfl

end SetHostIn

/-! ### Reading what was written -/

theorem writeBS_readBS (s : State) (r q : BsReg) (b : BitString) :
    (s.writeBS r b).readBS q = if r = q then b else s.readBS q := by
  simp only [State.readBS, writeBS_bs, Vector.getElem_set, BitVec.toNat_inj]

@[simp] theorem writeBS_readBS_same (s : State) (r : BsReg) (b : BitString) :
    (s.writeBS r b).readBS r = b := by simp [writeBS_readBS]

theorem writeDescriptor_descriptor (s : State) (i j : Nat) (d : Descriptor)
    (h : i < s.schFd.length) :
    (s.writeDescriptor i d).descriptor j = if i = j then d else s.descriptor j := by
  by_cases e : i = j
  · subst e; simp [State.descriptor, List.getD, h]
  · simp [State.descriptor, List.getD, List.getElem?_set_ne e, e]

theorem writeDefault_defaultValue (s : State) (i j : Nat) (v : DataWord)
    (h : i < s.schDef.length) :
    (s.writeDefault i v).defaultValue j = if i = j then v else s.defaultValue j := by
  by_cases e : i = j
  · subst e; simp [State.defaultValue, List.getD, h]
  · simp [State.defaultValue, List.getD, List.getElem?_set_ne e, e]

theorem writeFieldValue_fieldValue (s : State) (i j : Nat) (v : DataWord) (h : i < s.fv.length) :
    (s.writeFieldValue i v).fieldValue j = if i = j then v else s.fieldValue j := by
  by_cases e : i = j
  · subst e; simp [State.fieldValue, List.getD, h]
  · simp [State.fieldValue, List.getD, List.getElem?_set_ne e, e]

theorem writeFieldValue_fieldValue_ne (s : State) (i j : Nat) (v : DataWord) (h : i ≠ j) :
    (s.writeFieldValue i v).fieldValue j = s.fieldValue j := by
  simp [State.fieldValue, List.getD, List.getElem?_set_ne h]

end Sys2Proof.Machine
end

