-- ==== Sys2Proof/Laws/Ops.lean ====
section
/-!
SUPPORT. For each shared operation, one lemma that says everything it can do, to be cited instead of unfolding it.
-/

namespace Sys2Proof.Machine

/-! ### Digits -/

@[simp] theorem bitsOf_length (n v : Nat) : (bitsOf n v).length = n := by
  induction n with
  | zero => rfl
  | succ n ih => simp [bitsOf, ih]

theorem uval_append (a b : BitString) : uval (a ++ b) = uval a * 2 ^ b.length + uval b := by
  induction a with
  | nil => simp [uval]
  | cons d ds ih => simp only [List.cons_append, uval, ih, List.length_append, pow_add]; ring

theorem slice_length (b : BitString) (p n : Nat) : (slice b p n).length = min n (b.length - p) := by
  simp [slice]

/-- A slice inside the string has the length asked for. -/
theorem slice_length_of_le {b : BitString} {p n : Nat} (h : p + n ≤ b.length) :
    (slice b p n).length = n := by
  rw [slice_length]; omega

/-! ### The reader, the writer and BitString registers -/

/-- Everything ReadBits can do. -/
theorem readBits_ok {s t : State} {n : Nat} {b : BitString} :
    s.readBits n = .ok (b, t) ↔
      n ≤ s.rSrc.length - s.rPos ∧ b = slice s.rSrc s.rPos n ∧ t = { s with rPos := s.rPos + n } := by
  unfold State.readBits State.remaining
  split
  · simp; omega
  · simp only [Except.ok.injEq, Prod.mk.injEq]
    constructor
    · rintro ⟨rfl, rfl⟩; exact ⟨by omega, rfl, rfl⟩
    · rintro ⟨-, rfl, rfl⟩; exact ⟨rfl, rfl⟩

/-- When ReadBits raises, and what. -/
theorem readBits_error {s : State} {n : Nat} {e : Raise} :
    s.readBits n = .error e ↔
      s.rSrc.length - s.rPos < n ∧ e = .readOverrun (s.rSrc.length - s.rPos) n := by
  unfold State.readBits State.remaining
  split
  · simp only [Except.error.injEq]
    constructor
    · rintro rfl; exact ⟨by omega, rfl⟩
    · rintro ⟨-, rfl⟩; rfl
  · simp; omega

/-- Everything Append can do. -/
theorem append_ok {s t : State} {b : BitString} :
    s.append b = .ok t ↔
      s.wBuf.length + b.length ≤ s.params.capBits ∧ t = { s with wBuf := s.wBuf ++ b } := by
  unfold State.append
  split
  · simp; omega
  · simp only [Except.ok.injEq]
    constructor
    · rintro rfl; exact ⟨by omega, rfl⟩
    · rintro ⟨-, rfl⟩; rfl

/-- When Append raises, and what. -/
theorem append_error {s : State} {b : BitString} {e : Raise} :
    s.append b = .error e ↔
      s.params.capBits < s.wBuf.length + b.length ∧
        e = .bufferOverflow (s.wBuf.length + b.length) := by
  unfold State.append
  split
  · simp only [Except.error.injEq]
    constructor
    · rintro rfl; exact ⟨by omega, rfl⟩
    · rintro ⟨-, rfl⟩; rfl
  · simp; omega

/-! ### Operands -/

theorem widthOperand_ok {w : Imm} {n : Nat} :
    widthOperand w = .ok n ↔ 1 ≤ w.toNat ∧ w.toNat ≤ 64 ∧ n = w.toNat := by
  unfold widthOperand
  split
  · simp; omega
  · simp only [Except.ok.injEq]; constructor
    · rintro rfl; exact ⟨by omega, by omega, rfl⟩
    · rintro ⟨-, -, rfl⟩; rfl

theorem widthOperand_error {w : Imm} {e : Raise} :
    widthOperand w = .error e ↔ (w.toNat = 0 ∨ 64 < w.toNat) ∧ e = .illegalOperand := by
  unfold widthOperand
  split
  · simp only [Except.error.injEq]; constructor
    · rintro rfl; exact ⟨by omega, rfl⟩
    · rintro ⟨-, rfl⟩; rfl
  · simp; omega

theorem fieldOperand_ok {i : Imm} {s : State} {n : Nat} :
    fieldOperand i s = .ok n ↔ i.toNat < s.params.maxFields ∧ n = i.toNat := by
  unfold fieldOperand
  split
  · simp; omega
  · simp only [Except.ok.injEq]; constructor
    · rintro rfl; exact ⟨by omega, rfl⟩
    · rintro ⟨-, rfl⟩; rfl

theorem fieldOperand_error {i : Imm} {s : State} {e : Raise} :
    fieldOperand i s = .error e ↔ s.params.maxFields ≤ i.toNat ∧ e = .illegalOperand := by
  unfold fieldOperand
  split
  · simp only [Except.error.injEq]; constructor
    · rintro rfl; exact ⟨by omega, rfl⟩
    · rintro ⟨-, rfl⟩; rfl
  · simp; omega

/-- A descriptor SCH_FD accepts is well formed and packed as in the data word. -/
theorem descriptorOperand_ok {d : DataWord} {f : Descriptor} (h : descriptorOperand d = .ok f) :
    f.wf = true ∧ kindOfCode (d.extractLsb' 8 3) = some f.kind ∧ f.width = d.extractLsb' 0 7 ∧
      f.ver = d.extractLsb' 32 32 := by
  unfold descriptorOperand at h
  split at h
  · cases h
  · split at h
    · cases h; refine ⟨?_, ?_, rfl, rfl⟩ <;> assumption
    · cases h

theorem descriptorOperand_error {d : DataWord} {e : Raise} (h : descriptorOperand d = .error e) :
    e = .illegalOperand := by
  unfold descriptorOperand at h
  split at h
  · cases h; rfl
  · split at h
    · cases h
    · cases h; rfl

theorem csrOperand_error {a : Imm} {s : State} {e : Raise} (h : csrOperand a s = .error e) :
    e = .illegalOperand := by
  unfold csrOperand at h
  split at h
  any_goals cases h
  split at h
  · cases h
  · split at h
    · cases h
    · cases h; rfl

/-- A CSR that reads a descriptor or a default is one of an existing field. -/
theorem csrOperand_field {a : Imm} {s : State} {i : Nat}
    (h : csrOperand a s = .ok (.schFd i) ∨ csrOperand a s = .ok (.schDef i)) :
    i < s.params.maxFields := by
  unfold csrOperand at h
  split at h
  all_goals try simp at h
  split at h
  · simp at h; omega
  · split at h
    · simp at h; omega
    · simp at h

/-- Everything a CSR write can do. -/
theorem csrWrite_ok {c : Csr} {d : DataWord} {s t : State} (h : csrWrite c d s = .ok t) :
    (c = .i32Offset ∧ t = { s with i32Offset := lowWord d }) ∨
    (c = .lenpol ∧ ∃ p, lenPolicyOfCode (d.extractLsb' 0 2) = some p ∧ t = { s with lenpol := p }) ∨
    (c = .schTag ∧ t = { s with schTag := lowWord d }) ∨
    (c = .schNf ∧ (lowWord d).toNat ≤ s.params.maxFields ∧
      t = { s with schNf := (lowWord d).toNat }) := by
  unfold csrWrite at h
  split at h
  any_goals cases h
  · exact .inl ⟨rfl, rfl⟩
  · split at h
    · cases h; exact .inr (.inl ⟨rfl, _, ‹_›, rfl⟩)
    · cases h
  · exact .inr (.inr (.inl ⟨rfl, rfl⟩))
  · split at h
    · cases h
    · cases h; exact .inr (.inr (.inr ⟨rfl, by omega, rfl⟩))

theorem csrWrite_error {c : Csr} {d : DataWord} {s : State} {e : Raise}
    (h : csrWrite c d s = .error e) : e = .illegalOperand := by
  unfold csrWrite at h
  split at h
  any_goals (cases h; try rfl)
  all_goals
    split at h <;> cases h
    rfl

/-- The digits of a text, when every byte is one. -/
theorem digitsFrom_length {j : Nat} {text : List Byte} {b : BitString}
    (h : digitsFrom j text = .ok b) : b.length = text.length := by
  induction text generalizing j b with
  | nil => cases h; rfl
  | cons c cs ih =>
    unfold digitsFrom at h
    split at h
    · cases h
    · split at h
      · cases h
      · rename_i hr; cases h; simp [ih hr]

/-- A text is refused for its first byte that is no digit, at its position. -/
theorem digitsFrom_error {j : Nat} {text : List Byte} {e : Raise} (h : digitsFrom j text = .error e) :
    ∃ before c after, text = before ++ c :: after ∧ (∀ x ∈ before, (digitOf x).isSome) ∧
      digitOf c = none ∧ e = .invalidCharacter c (j + before.length) := by
  induction text generalizing j with
  | nil => cases h
  | cons c cs ih =>
    unfold digitsFrom at h
    split at h
    · cases h; exact ⟨[], c, cs, rfl, by simp, ‹_›, rfl⟩
    · rename_i d hd
      split at h
      · rename_i hr
        cases h
        obtain ⟨before, x, after, rfl, hb, hx, rfl⟩ := ih hr
        refine ⟨c :: before, x, after, rfl, ?_, hx, ?_⟩
        · intro y hy
          rcases List.mem_cons.1 hy with rfl | hy
          · simp [hd]
          · exact hb y hy
        · simp; omega
      · cases h

/-! ### Conversions -/

theorem encUnsigned_ok {fe : Option Nat} {w v : Nat} {b : BitString} :
    encUnsigned fe w v = .ok b ↔ v < 2 ^ w ∧ b = bitsOf w v := by
  unfold encUnsigned
  split <;> simp_all [eq_comm]

theorem encUnsigned_error {fe : Option Nat} {w v : Nat} {e : Raise} :
    encUnsigned fe w v = .error e ↔ 2 ^ w ≤ v ∧ e = .rangeError fe w := by
  unfold encUnsigned
  split <;> simp_all [eq_comm]

/-- The digits of an i32 are a flag and 31 magnitude bits. -/
theorem encI32_ok {fe : Option Nat} {v : Int} {off : Nat} {b : BitString}
    (h : encI32 fe v off = .ok b) :
    (0 ≤ v ∧ v < 2 ^ 31 ∧ b = true :: bitsOf 31 v.toNat) ∨
    (v < 0 ∧ 0 ≤ v + off ∧ v + off < 2 ^ 31 ∧ b = false :: bitsOf 31 (v + off).toNat) := by
  unfold encI32 at h
  split at h
  · split at h
    · cases h
    · cases h; exact .inl ⟨‹_›, by omega, rfl⟩
  · split at h
    · cases h
    · cases h; exact .inr ⟨by omega, by omega, by omega, rfl⟩

theorem encI32_error {fe : Option Nat} {v : Int} {off : Nat} {e : Raise}
    (h : encI32 fe v off = .error e) : e = .rangeError fe 31 := by
  unfold encI32 at h
  split at h <;> split at h <;> first | (cases h; done) | (cases h; rfl)

@[simp] theorem encU64_length (v : DataWord) : (encU64 v).length = 64 := by simp [encU64]

@[simp] theorem encF32_length (f raw : BitVec 32) : (encF32 f raw).length = 32 := by simp [encF32]

/-- The length check accepts the fixed width, or 1 to 64. -/
theorem checkLen_ok {k : Kind} {b : BitString} :
    checkLen k b = .ok () ↔ k.admitsWidth b.length = true := by
  cases k <;> simp only [checkLen, Kind.admitsWidth, Kind.fixedWidth] <;> split <;> simp <;> omega

theorem checkLen_error {k : Kind} {b : BitString} {e : Raise} :
    checkLen k b = .error e ↔
      k.admitsWidth b.length = false ∧ e = .lengthMismatch (k.fixedWidth.getD 0) b.length := by
  cases k <;> simp only [checkLen, Kind.admitsWidth, Kind.fixedWidth] <;> split <;>
    simp only [Except.error.injEq, reduceCtorEq, Option.getD, false_iff, not_and, beq_eq_false_iff_ne,
      Bool.and_eq_false_iff, decide_eq_false_iff_not, @eq_comm _ _ e]
  all_goals first
    | (intro h; omega)
    | (refine ⟨fun h => ⟨by omega, h⟩, fun h => h.2⟩)

/-- An encoding has the width of its kind. -/
theorem encK_length {fe : Option Nat} {k : Kind} {w : Nat} {x : DataWord} {off raw : BitVec 32}
    {b : BitString} (h : encK fe k w x off raw = .ok b) : b.length = k.fixedWidth.getD w := by
  cases k <;> simp only [encK] at h
  · rw [(encUnsigned_ok.1 h).2]; simp [Kind.fixedWidth]
  · rw [(encUnsigned_ok.1 h).2]; simp [Kind.fixedWidth]
  · rcases encI32_ok h with ⟨-, -, rfl⟩ | ⟨-, -, -, rfl⟩ <;> simp [Kind.fixedWidth]
  · cases h; exact encU64_length x
  · cases h; exact encF32_length _ _
  · rw [(encUnsigned_ok.1 h).2]; simp [Kind.fixedWidth]

/-- An encoding raises RangeError and nothing else, never for a u64 or an f32. -/
theorem encK_error {fe : Option Nat} {k : Kind} {w : Nat} {x : DataWord} {off raw : BitVec 32}
    {e : Raise} (h : encK fe k w x off raw = .error e) :
    (∃ n, e = .rangeError fe n) ∧ k ≠ .u64 ∧ k ≠ .f32 := by
  cases k <;> simp only [encK] at h
  · exact ⟨⟨_, (encUnsigned_error.1 h).2⟩, by decide⟩
  · exact ⟨⟨_, (encUnsigned_error.1 h).2⟩, by decide⟩
  · exact ⟨⟨_, encI32_error h⟩, by decide⟩
  · cases h
  · cases h
  · exact ⟨⟨_, (encUnsigned_error.1 h).2⟩, by decide⟩

/-! ### The end of a command -/

/-- Everything the end of a command can do. -/
theorem finish_next {cw : CommandWord} {s t : State} {r : Except Raise State} :
    finish cw s r = .next t ↔
      (∃ u, r = .ok u ∧ t = u.respond []) ∨ (∃ e, r = .error e ∧ t = s.takeFault cw e) := by
  cases r <;> simp [finish, eq_comm]

/-- A command always ends in a next state. -/
theorem finish_total (cw : CommandWord) (s : State) (r : Except Raise State) :
    ∃ t, finish cw s r = .next t := by cases r <;> exact ⟨_, rfl⟩

@[simp] theorem finish_ok (cw : CommandWord) (s u : State) :
    finish cw s (.ok u) = .next (u.respond []) := rfl

@[simp] theorem finish_error (cw : CommandWord) (s : State) (e : Raise) :
    finish cw s (.error e) = .next (s.takeFault cw e) := rfl

/-! ### The shapes of the command groups -/

/-- Everything a FROM_ command's effect can do. -/
theorem fromView_ok {k : Kind} {w : Nat} {rd : BsReg} {d : DataWord} {s t : State} :
    fromView k w rd d s = .ok t ↔
      ∃ b, s.encode none k w d = .ok b ∧ t = (s.writeBS rd b).useDraw k := by
  unfold fromView
  cases s.encode none k w d <;> simp [eq_comm]

theorem fromView_error {k : Kind} {w : Nat} {rd : BsReg} {d : DataWord} {s : State} {e : Raise} :
    fromView k w rd d s = .error e ↔ s.encode none k w d = .error e := by
  unfold fromView
  split <;> simp_all

/-- Everything an AS_ command's effect can do. -/
theorem asView_ok {k : Kind} {rs : BsReg} {s t : State} :
    asView k rs s = .ok t ↔
      checkLen k (s.readBS rs) = .ok () ∧ t = (s.setRes (s.decode k (s.readBS rs))).useDraw k := by
  unfold asView
  cases checkLen k (s.readBS rs) <;> simp [eq_comm]

theorem asView_error {k : Kind} {rs : BsReg} {s : State} {e : Raise} :
    asView k rs s = .error e ↔ checkLen k (s.readBS rs) = .error e := by
  unfold asView
  split <;> simp_all

/-- Everything a W_ command's effect can do. -/
theorem writeView_ok {k : Kind} {w : Nat} {d : DataWord} {s t : State} :
    writeView k w d s = .ok t ↔
      ∃ b, s.encode none k w d = .ok b ∧ s.wBuf.length + b.length ≤ s.params.capBits ∧
        t = { s.useDraw k with wBuf := s.wBuf ++ b } := by
  unfold writeView
  split
  · simp_all
  · simp_all [append_ok]

theorem writeView_error {k : Kind} {w : Nat} {d : DataWord} {s : State} {e : Raise} :
    writeView k w d s = .error e ↔
      s.encode none k w d = .error e ∨
      ∃ b, s.encode none k w d = .ok b ∧ s.params.capBits < s.wBuf.length + b.length ∧
        e = .bufferOverflow (s.wBuf.length + b.length) := by
  unfold writeView
  split
  · simp_all
  · simp_all [append_error]

/-- Everything the effect of an R_ command that gives a value can do. -/
theorem readView_ok {k : Kind} {w : Nat} {s t : State} :
    readView k w s = .ok t ↔
      w ≤ s.rSrc.length - s.rPos ∧
        t = { s with
          rPos := s.rPos + w
          res := s.decode k (slice s.rSrc s.rPos w)
          nanDraws := s.nanDraws + drawsOf k
          fdHvalid := false } := by
  unfold readView
  split
  · rename_i h; simp [(readBits_error.1 h).1]
  · rename_i h
    obtain ⟨hw, rfl, rfl⟩ := readBits_ok.1 h
    simp only [Except.ok.injEq, hw, true_and]
    exact eq_comm

theorem readView_error {k : Kind} {w : Nat} {s : State} {e : Raise} :
    readView k w s = .error e ↔ s.readBits w = .error e := by
  unfold readView
  split <;> simp_all

/-! ### Frames -/

/-- The frame encoder's loop changes the draw counter alone and adds the digits of the present fields. -/
theorem encodeFields_frame {v : BitVec 32} {n i : Nat} {b b' : BitString} {s t : State}
    (h : encodeFields v n i b s = .ok (b', t)) :
    ∃ more draws, b' = b ++ more ∧ t = { s with nanDraws := draws } := by
  induction n generalizing i b s with
  | zero => cases h; exact ⟨[], t.nanDraws, by simp, rfl⟩
  | succ n ih =>
    unfold encodeFields at h
    split at h
    · cases h
    · rename_i b1 s1 h1
      obtain ⟨more, draws, rfl, rfl⟩ := ih h
      unfold encodeField at h1
      split at h1
      · split at h1
        · cases h1
        · rename_i p _; cases h1; exact ⟨p ++ more, draws, by simp, rfl⟩
      · cases h1; exact ⟨more, draws, rfl, rfl⟩

/-- The frame encoder's loop raises RangeError for one of its fields and nothing else. -/
theorem encodeFields_error {v : BitVec 32} {n i : Nat} {b : BitString} {s : State} {e : Raise}
    (h : encodeFields v n i b s = .error e) : ∃ j w, i ≤ j ∧ j < i + n ∧ e = .rangeError (some j) w := by
  induction n generalizing i b s with
  | zero => cases h
  | succ n ih =>
    unfold encodeFields at h
    split at h
    · rename_i h1
      cases h
      unfold encodeField at h1
      split at h1
      · split at h1
        · rename_i h2
          cases h1
          obtain ⟨⟨w, rfl⟩, -⟩ := encK_error h2
          exact ⟨i, w, le_refl _, by omega, rfl⟩
        · cases h1
      · cases h1
    · obtain ⟨j, w, h1, h2, rfl⟩ := ih h
      exact ⟨j, w, by omega, by omega, rfl⟩

/-- The frame decoder's loop moves the cursor by what it counts, writes field values and moves the draw
counter; from inside the source it stays inside. -/
theorem decodeFields_frame {v : BitVec 32} {n i c c' : Nat} {s t : State}
    (h : decodeFields v n i c s = .ok (c', t)) :
    ∃ k fv draws, c' = c + k ∧ (s.rPos ≤ s.rSrc.length → s.rPos + k ≤ s.rSrc.length) ∧
      fv.length = s.fv.length ∧
      t = { s with rPos := s.rPos + k, fv := fv, nanDraws := draws } := by
  induction n generalizing i c s with
  | zero => cases h; exact ⟨0, t.fv, t.nanDraws, rfl, id, rfl, rfl⟩
  | succ n ih =>
    unfold decodeFields at h
    split at h
    · cases h
    · rename_i c1 s1 h1
      unfold decodeField at h1
      split at h1
      · split at h1
        · cases h1
        · rename_i h2
          cases h1
          obtain ⟨hw, rfl, rfl⟩ := readBits_ok.1 h2
          obtain ⟨k, fv, draws, rfl, hk, hl, rfl⟩ := ih h
          refine ⟨(s.descriptor i).width.toNat + k, fv, draws, by omega, fun hp => ?_, ?_, ?_⟩
          · have := hk (by simp; omega); simp at this; omega
          · simpa using hl
          · simp [State.writeFieldValue, State.useDraw, Nat.add_assoc]
      · cases h1
        obtain ⟨k, fv, draws, rfl, hk, hl, rfl⟩ := ih h
        exact ⟨k, fv, draws, rfl, hk, by simpa using hl, rfl⟩

/-- The frame decoder's loop raises ReadOverrun and nothing else. -/
theorem decodeFields_error {v : BitVec 32} {n i c : Nat} {s : State} {e : Raise}
    (h : decodeFields v n i c s = .error e) : ∃ left asked, e = .readOverrun left asked := by
  induction n generalizing i c s with
  | zero => cases h
  | succ n ih =>
    unfold decodeFields at h
    split at h
    · rename_i h1
      cases h
      unfold decodeField at h1
      split at h1
      · split at h1
        · rename_i h2; cases h1; exact ⟨_, _, (readBits_error.1 h2).2⟩
        · cases h1
      · cases h1
    · exact ih h

/-- Everything the length policy can do. -/
theorem lenPolicy_ok {c : Nat} {s t : State} (h : lenPolicy c s = .ok t) :
    (s.lenpol = .permissive ∧ t = { s with
      status := { s.status with
        underrun := s.status.underrun || decide (c < s.fdLen.toNat)
        overrun := s.status.overrun || decide (s.fdLen.toNat < c) } }) ∨
    (s.lenpol = .exact ∧ c = s.fdLen.toNat ∧ t = s) ∨
    (s.lenpol = .framed ∧ c ≤ s.fdLen.toNat ∧ s.fdLen.toNat - c ≤ s.rSrc.length - s.rPos ∧ t = { s with
      rPos := s.rPos + (s.fdLen.toNat - c)
      status := { s.status with underrun := s.status.underrun || decide (c < s.fdLen.toNat) } }) := by
  unfold lenPolicy at h
  split at h
  · cases h
    refine .inl ⟨‹_›, ?_⟩
    split
    · simp [State.flagUnder, Status.setUnder, *, Nat.not_lt_of_lt ‹_›]
    · split
      · simp [State.flagOver, Status.setOver, *]
      · rename_i h1 h2; simp [h1, h2]
  · split at h
    · cases h
    · cases h; exact .inr (.inl ⟨‹_›, by omega, rfl⟩)
  · split at h
    · cases h
    · split at h
      · split at h
        · cases h
        · rename_i h2
          cases h
          obtain ⟨hw, -, rfl⟩ := readBits_ok.1 h2
          exact .inr (.inr ⟨‹_›, by omega, hw, by simp [State.flagUnder, Status.setUnder, *]⟩)
      · cases h
        refine .inr (.inr ⟨‹_›, by omega, by omega, ?_⟩)
        have h0 : s.fdLen.toNat - c = 0 := by omega
        rename_i h1
        simp [h0, h1]

/-- What the length policy raises. -/
theorem lenPolicy_error {c : Nat} {s : State} {e : Raise} (h : lenPolicy c s = .error e) :
    e = .frameConsistency s.fdLen.toNat c ∨
      e = .readOverrun (s.rSrc.length - s.rPos) (s.fdLen.toNat - c) := by
  unfold lenPolicy at h
  split at h
  · cases h
  · split at h <;> cases h
    exact .inl rfl
  · split at h
    · cases h; exact .inl rfl
    · split at h
      · split at h
        · rename_i h2; cases h; exact .inr (readBits_error.1 h2).2
        · cases h
      · cases h

end Sys2Proof.Machine
end

