-- ==== Sys2Proof/Laws/Exec.lean ====
section
/-!
SUPPORT. What the execution of any command can do, said once, and what the host port hands to a step.
-/

namespace Sys2Proof.Machine

open Sys2Proof.Spec

/-- What a command that completes has done to the state, before the block answers: one constructor a shape. -/
inductive Effect (s : State) : Instr → State → Prop where
  | rdreg (a : Imm) (c : Csr) (h : csrOperand a s = .ok c) :
      Effect s (.rdreg a) (s.setRes (csrRead s c))
  | wrreg (a : Imm) (d : DataWord) (c : Csr) (t : State) (h : csrOperand a s = .ok c)
      (hw : csrWrite c d s = .ok t) : Effect s (.wrreg a d) t
  | clrst : Effect s .clrst s.acknowledge
  | bsText (rd : BsReg) (text : List Byte) (b : BitString) (hl : text.length ≤ s.params.capBits)
      (h : digitsFrom 0 text = .ok b) : Effect s (.bsText rd text) (s.writeBS rd b)
  | bsStr (rs : BsReg) : Effect s (.bsStr rs) s
  | isBin (text : List Byte) (v : DataWord) : Effect s (.isBin text) (s.setRes v)
  | bsLen (rs : BsReg) (v : DataWord) : Effect s (.bsLen rs) (s.setRes v)
  | fromValue (k : Kind) (rd : BsReg) (w : Imm) (d : DataWord) (b : BitString) (hw : WidthOk k w)
      (h : s.encode none k (widthOf k w.toNat) d = .ok b) :
      Effect s (fromCommand k rd w d) ((s.writeBS rd b).useDraw k)
  | asValue (k : Kind) (rs : BsReg) (v : DataWord) (h : checkLen k (s.readBS rs) = .ok ())
      (hv : v = s.decode k (s.readBS rs)) : Effect s (asCommand k rs) ((s.setRes v).useDraw k)
  | writeValue (k : Kind) (w : Imm) (d : DataWord) (b : BitString) (hw : WidthOk k w)
      (h : s.encode none k (widthOf k w.toNat) d = .ok b)
      (hc : s.wBuf.length + b.length ≤ s.params.capBits) :
      Effect s (writeCommand k w d) { s.useDraw k with wBuf := s.wBuf ++ b }
  | wBits (rs : BsReg) (hc : s.wBuf.length + (s.readBS rs).length ≤ s.params.capBits) :
      Effect s (.wBits rs) { s with wBuf := s.wBuf ++ s.readBS rs }
  | wFlush (rd : BsReg) (v : DataWord) :
      Effect s (.wFlush rd) (((s.writeBS rd s.wBuf).setRes v).clearWriter)
  | readValue (k : Kind) (w : Imm) (v : DataWord) (hw : WidthOk k w)
      (h : widthOf k w.toNat ≤ s.rSrc.length - s.rPos)
      (hv : v = s.decode k (slice s.rSrc s.rPos (widthOf k w.toNat))) :
      Effect s (readCommand k w)
        { s with
          rPos := s.rPos + widthOf k w.toNat
          res := v
          nanDraws := s.nanDraws + drawsOf k
          fdHvalid := false }
  | rBits (rd : BsReg) (n : DataWord) (h : n.toNat ≤ s.rSrc.length - s.rPos) :
      Effect s (.rBits rd n)
        (({ s with rPos := s.rPos + n.toNat }.writeBS rd (slice s.rSrc s.rPos n.toNat)).clearLatch)
  | rSkip (n : DataWord) (h : n.toNat ≤ s.rSrc.length - s.rPos) :
      Effect s (.rSkip n) { s with rPos := s.rPos + n.toNat }.clearLatch
  | rLoad (rs : BsReg) : Effect s (.rLoad rs) (s.loadReader (s.readBS rs)).clearLatch
  | schFd (i : Imm) (d : DataWord) (f : Descriptor) (hi : i.toNat < s.params.maxFields)
      (h : descriptorOperand d = .ok f) : Effect s (.schFd i d) (s.writeDescriptor i.toNat f)
  | schDef (i : Imm) (d : DataWord) (hi : i.toNat < s.params.maxFields) :
      Effect s (.schDef i d) (s.writeDefault i.toNat d)
  | fvWr (i : Imm) (d : DataWord) (hi : i.toNat < s.params.maxFields) :
      Effect s (.fvWr i d) (s.writeFieldValue i.toNat d)
  | fvRd (i : Imm) (hi : i.toNat < s.params.maxFields) :
      Effect s (.fvRd i) (s.setRes (s.fieldValue i.toNat))
  | feEnc (rd : BsReg) (v : DataWord) (b : BitString) (t : State)
      (h : encodeFields (lowWord v) s.schNf 0 [] s = .ok (b, t)) (hb : b.length ≤ 2 ^ 32 - 1)
      (hc : (frameOf s.schTag b).length ≤ s.params.capBits) :
      Effect s (.feEnc rd v) ((t.writeBS rd (frameOf s.schTag b)).setRes (BitVec.ofNat 64 b.length))
  | fdHdr (v : DataWord) (h : 64 ≤ s.rSrc.length - s.rPos) :
      Effect s .fdHdr
        (({ s with rPos := s.rPos + 64 }.latchHeader (slice s.rSrc s.rPos 64)).setRes v)
  | fdBody (v : DataWord) (c : Nat) (t u : State) (hv : s.fdHvalid = true)
      (h : decodeFields (lowWord v) s.schNf 0 0 s = .ok (c, t)) (hl : lenPolicy c t = .ok u) :
      Effect s (.fdBody v) (((u.setConsumed c).clearLatch).setRes (BitVec.ofNat 64 c))
  | fdSkip (hv : s.fdHvalid = true) (h : s.fdLen.toNat ≤ s.rSrc.length - s.rPos) :
      Effect s .fdSkip { s with rPos := s.rPos + s.fdLen.toNat }.clearLatch

/-- A fault, as an end of a command. -/
theorem finish_cases {i : Instr} {s t : State} {r : Except Raise State}
    (h : finish (commandWord i) s r = .next t) (hr : ∀ u, r = .ok u → Effect s i u) :
    (∃ u text, Effect s i u ∧ t = u.respond text) ∨ ∃ e, t = s.takeFault (commandWord i) e := by
  rcases finish_next.1 h with ⟨u, rfl, rfl⟩ | ⟨e, -, rfl⟩
  · exact .inl ⟨u, [], hr u rfl, rfl⟩
  · exact .inr ⟨e, rfl⟩

theorem effect_from {s u : State} {k : Kind} {rd : BsReg} {w : Imm} {d : DataWord} (hw : WidthOk k w)
    (h : fromView k (widthOf k w.toNat) rd d s = .ok u) : Effect s (fromCommand k rd w d) u := by
  obtain ⟨b, hb, rfl⟩ := fromView_ok.1 h
  exact .fromValue k rd w d b hw hb

theorem effect_as {s u : State} {k : Kind} {rs : BsReg} (h : asView k rs s = .ok u) :
    Effect s (asCommand k rs) u := by
  obtain ⟨hc, rfl⟩ := asView_ok.1 h
  exact .asValue k rs _ hc rfl

theorem effect_write {s u : State} {k : Kind} {w : Imm} {d : DataWord} (hw : WidthOk k w)
    (h : writeView k (widthOf k w.toNat) d s = .ok u) : Effect s (writeCommand k w d) u := by
  obtain ⟨b, hb, hc, rfl⟩ := writeView_ok.1 h
  exact .writeValue k w d b hw hb hc

theorem effect_read {s u : State} {k : Kind} {w : Imm} (hw : WidthOk k w)
    (h : readView k (widthOf k w.toNat) s = .ok u) : Effect s (readCommand k w) u := by
  obtain ⟨hn, rfl⟩ := readView_ok.1 h
  exact .readValue k w _ hw hn rfl

/-- Everything a command can do: it completes with its effect and an answer, or it faults. -/
theorem exec_cases {i : Instr} {s t : State} (h : exec i s = .next t) :
    (∃ u text, Effect s i u ∧ t = u.respond text) ∨ ∃ e, t = s.takeFault (commandWord i) e := by
  have w (k : Kind) (hk : k ≠ .num) : WidthOk k 0 := fun e => absurd e hk
  cases i
  case bsStr rs => cases h; exact .inl ⟨s, _, .bsStr rs, rfl⟩
  case fromU16 rd d => exact finish_cases h fun u hu => effect_from (w .u16 (by decide)) hu
  case fromU32 rd d => exact finish_cases h fun u hu => effect_from (w .u32 (by decide)) hu
  case fromI32 rd d => exact finish_cases h fun u hu => effect_from (w .i32 (by decide)) hu
  case fromU64 rd d =>
    simp only [exec, execFromU64] at h
    exact finish_cases h fun u hu => effect_from (w .u64 (by decide)) hu
  case fromF32 rd d =>
    simp only [exec, execFromF32] at h
    exact finish_cases h fun u hu => effect_from (w .f32 (by decide)) hu
  case asU16 rs => exact finish_cases h fun u hu => effect_as (k := .u16) hu
  case asU32 rs => exact finish_cases h fun u hu => effect_as (k := .u32) hu
  case asI32 rs => exact finish_cases h fun u hu => effect_as (k := .i32) hu
  case asU64 rs => exact finish_cases h fun u hu => effect_as (k := .u64) hu
  case asF32 rs => exact finish_cases h fun u hu => effect_as (k := .f32) hu
  case asNum rs => exact finish_cases h fun u hu => effect_as (k := .num) hu
  case wU16 d => exact finish_cases h fun u hu => effect_write (w .u16 (by decide)) hu
  case wU32 d => exact finish_cases h fun u hu => effect_write (w .u32 (by decide)) hu
  case wI32 d => exact finish_cases h fun u hu => effect_write (w .i32 (by decide)) hu
  case wU64 d => exact finish_cases h fun u hu => effect_write (w .u64 (by decide)) hu
  case wF32 d => exact finish_cases h fun u hu => effect_write (w .f32 (by decide)) hu
  case rU16 => exact finish_cases h fun u hu => effect_read (w .u16 (by decide)) hu
  case rU32 => exact finish_cases h fun u hu => effect_read (w .u32 (by decide)) hu
  case rI32 => exact finish_cases h fun u hu => effect_read (w .i32 (by decide)) hu
  case rU64 => exact finish_cases h fun u hu => effect_read (w .u64 (by decide)) hu
  case rF32 => exact finish_cases h fun u hu => effect_read (w .f32 (by decide)) hu
  case clrst =>
    simp only [exec, execClrst] at h; exact finish_cases h fun u hu => by cases hu; exact .clrst
  case isBin text =>
    simp only [exec, execIsBin] at h; exact finish_cases h fun u hu => by cases hu; exact .isBin text _
  case bsLen rs =>
    simp only [exec, execBsLen] at h; exact finish_cases h fun u hu => by cases hu; exact .bsLen rs _
  case wFlush rd =>
    simp only [exec, execWFlush] at h; exact finish_cases h fun u hu => by cases hu; exact .wFlush rd _
  case rLoad rs =>
    simp only [exec, execRLoad] at h; exact finish_cases h fun u hu => by cases hu; exact .rLoad rs
  all_goals refine finish_cases h fun u hu => ?_
  case rdreg a =>
    split at hu <;> cases hu
    exact .rdreg a _ ‹_›
  case wrreg a d =>
    split at hu
    · cases hu
    · exact .wrreg a d _ u ‹_› hu
  case bsText rd text =>
    split at hu
    · cases hu
    · split at hu <;> cases hu
      exact .bsText rd text _ (by omega) ‹_›
  case fromNum rd w d =>
    split at hu
    · cases hu
    · rename_i hw
      obtain ⟨h1, h2, rfl⟩ := widthOperand_ok.1 hw
      exact effect_from (k := .num) (fun _ => ⟨h1, h2⟩) hu
  case wNum w d =>
    split at hu
    · cases hu
    · rename_i hw
      obtain ⟨h1, h2, rfl⟩ := widthOperand_ok.1 hw
      exact effect_write (k := .num) (fun _ => ⟨h1, h2⟩) hu
  case rNum w =>
    split at hu
    · cases hu
    · rename_i hw
      obtain ⟨h1, h2, rfl⟩ := widthOperand_ok.1 hw
      exact effect_read (k := .num) (fun _ => ⟨h1, h2⟩) hu
  case wBits rs =>
    obtain ⟨hc, rfl⟩ := append_ok.1 hu
    exact .wBits rs hc
  case rBits rd n =>
    split at hu
    · cases hu
    · rename_i hr
      obtain ⟨hn, rfl, rfl⟩ := readBits_ok.1 hr
      cases hu; exact .rBits rd n hn
  case rSkip n =>
    split at hu
    · cases hu
    · rename_i hr
      obtain ⟨hn, rfl, rfl⟩ := readBits_ok.1 hr
      cases hu; exact .rSkip n hn
  case schFd i d =>
    split at hu
    · cases hu
    · rename_i hi
      obtain ⟨hlt, rfl⟩ := fieldOperand_ok.1 hi
      split at hu <;> cases hu
      exact .schFd i d _ hlt ‹_›
  case schDef i d =>
    split at hu
    · cases hu
    · rename_i hi
      obtain ⟨hlt, rfl⟩ := fieldOperand_ok.1 hi
      cases hu; exact .schDef i d hlt
  case fvWr i d =>
    split at hu
    · cases hu
    · rename_i hi
      obtain ⟨hlt, rfl⟩ := fieldOperand_ok.1 hi
      cases hu; exact .fvWr i d hlt
  case fvRd i =>
    split at hu
    · cases hu
    · rename_i hi
      obtain ⟨hlt, rfl⟩ := fieldOperand_ok.1 hi
      cases hu; exact .fvRd i hlt
  case feEnc rd v =>
    split at hu
    · cases hu
    · split at hu
      · cases hu
      · split at hu
        · cases hu
        · cases hu; exact .feEnc rd v _ _ ‹_› (by omega) (by omega)
  case fdHdr =>
    split at hu
    · cases hu
    · rename_i hr
      obtain ⟨hn, rfl, rfl⟩ := readBits_ok.1 hr
      cases hu; exact .fdHdr _ hn
  case fdBody v =>
    split at hu
    · cases hu
    · rename_i hv
      split at hu
      · cases hu
      · split at hu <;> cases hu
        exact .fdBody v _ _ _ (by simpa using hv) ‹_› ‹_›
  case fdSkip =>
    split at hu
    · cases hu
    · rename_i hv
      split at hu
      · cases hu
      · rename_i hr
        obtain ⟨hn, -, rfl⟩ := readBits_ok.1 hr
        cases hu; exact .fdSkip (by simpa using hv) hn

/-- A transaction whose text has arrived is taken with exactly its text. -/
theorem poll_transaction {t : Transaction} {rest : List HostEvent} (h : textLen t.cw ≤ t.text.length) :
    poll (.transaction t :: rest) = .run { t with text := t.text.take (textLen t.cw) } rest := by
  simp [poll, takeText, h]

/-- A transaction whose text is short waits, when nothing is behind it. -/
theorem poll_short {t : Transaction} (h : t.text.length < textLen t.cw) :
    poll [.transaction t] = .wait := by
  simp only [poll, takeText, if_neg (Nat.not_le_of_lt h)]

/-- Reset behind a transaction whose text is short abandons it. -/
theorem poll_short_reset {t : Transaction} {rest : List HostEvent}
    (h : t.text.length < textLen t.cw) : poll (.transaction t :: .reset :: rest) = .reset rest := by
  simp only [poll, takeText, if_neg (Nat.not_le_of_lt h)]

end Sys2Proof.Machine
end

