-- ==== Sys2Proof/Laws/PerInstr.lean ====
section
/-!
SUPPORT. Statements made of every command, one lemma a constructor.
-/

namespace Sys2Proof.Laws.RowSelected

/-- The match and mask of a command's row (30_encoding.md R76). -/
def row : Instr → CommandWord × CommandWord
  | .rdreg _ => (0x01000000, 0xFFFF0000)
  | .wrreg _ _ => (0x02000000, 0xFFFF0000)
  | .clrst => (0x03000000, 0xFFFFFFFF)
  | .bsText _ _ => (0x10000000, 0xFF0F0000)
  | .bsStr _ => (0x11000000, 0xFFF0FFFF)
  | .isBin _ => (0x12000000, 0xFFFF0000)
  | .bsLen _ => (0x13000000, 0xFFF0FFFF)
  | .fromU16 _ _ => (0x20000000, 0xFF0FFFFF)
  | .fromU32 _ _ => (0x21000000, 0xFF0FFFFF)
  | .fromI32 _ _ => (0x22000000, 0xFF0FFFFF)
  | .fromU64 _ _ => (0x23000000, 0xFF0FFFFF)
  | .fromF32 _ _ => (0x24000000, 0xFF0FFFFF)
  | .fromNum _ _ _ => (0x25000000, 0xFF0F0000)
  | .asU16 _ => (0x30000000, 0xFFF0FFFF)
  | .asU32 _ => (0x31000000, 0xFFF0FFFF)
  | .asI32 _ => (0x32000000, 0xFFF0FFFF)
  | .asU64 _ => (0x33000000, 0xFFF0FFFF)
  | .asF32 _ => (0x34000000, 0xFFF0FFFF)
  | .asNum _ => (0x35000000, 0xFFF0FFFF)
  | .wU16 _ => (0x40000000, 0xFFFFFFFF)
  | .wU32 _ => (0x41000000, 0xFFFFFFFF)
  | .wI32 _ => (0x42000000, 0xFFFFFFFF)
  | .wU64 _ => (0x43000000, 0xFFFFFFFF)
  | .wF32 _ => (0x44000000, 0xFFFFFFFF)
  | .wNum _ _ => (0x45000000, 0xFFFF0000)
  | .wBits _ => (0x46000000, 0xFFF0FFFF)
  | .wFlush _ => (0x47000000, 0xFF0FFFFF)
  | .rU16 => (0x50000000, 0xFFFFFFFF)
  | .rU32 => (0x51000000, 0xFFFFFFFF)
  | .rI32 => (0x52000000, 0xFFFFFFFF)
  | .rU64 => (0x53000000, 0xFFFFFFFF)
  | .rF32 => (0x54000000, 0xFFFFFFFF)
  | .rNum _ => (0x55000000, 0xFFFF0000)
  | .rBits _ _ => (0x56000000, 0xFF0FFFFF)
  | .rSkip _ => (0x57000000, 0xFFFFFFFF)
  | .rLoad _ => (0x58000000, 0xFFF0FFFF)
  | .schFd _ _ => (0x60000000, 0xFFFF0000)
  | .schDef _ _ => (0x61000000, 0xFFFF0000)
  | .fvWr _ _ => (0x62000000, 0xFFFF0000)
  | .fvRd _ => (0x63000000, 0xFFFF0000)
  | .feEnc _ _ => (0x64000000, 0xFF0FFFFF)
  | .fdHdr => (0x65000000, 0xFFFFFFFF)
  | .fdBody _ => (0x66000000, 0xFFFFFFFF)
  | .fdSkip => (0x67000000, 0xFFFFFFFF)

/-- The command word of a command selects the command's row. -/
def Statement (i : Instr) : Prop := commandWord i &&& (row i).2 = (row i).1

theorem rdreg (csr : Imm) : Statement (.rdreg csr) :=
  and_mask_imm _ _ _ _

theorem wrreg (csr : Imm) (d : DataWord) : Statement (.wrreg csr d) :=
  and_mask_imm _ _ _ _

theorem clrst : Statement (.clrst) :=
  and_mask_none _ _ _ _

theorem bsText (rd : BsReg) (text : List Byte) : Statement (.bsText rd text) :=
  and_mask_rd_imm _ _ _ _

theorem bsStr (rs : BsReg) : Statement (.bsStr rs) :=
  and_mask_rs _ _ _ _

theorem isBin (text : List Byte) : Statement (.isBin text) :=
  and_mask_imm _ _ _ _

theorem bsLen (rs : BsReg) : Statement (.bsLen rs) :=
  and_mask_rs _ _ _ _

theorem fromU16 (rd : BsReg) (d : DataWord) : Statement (.fromU16 rd d) :=
  and_mask_rd _ _ _ _

theorem fromU32 (rd : BsReg) (d : DataWord) : Statement (.fromU32 rd d) :=
  and_mask_rd _ _ _ _

theorem fromI32 (rd : BsReg) (d : DataWord) : Statement (.fromI32 rd d) :=
  and_mask_rd _ _ _ _

theorem fromU64 (rd : BsReg) (d : DataWord) : Statement (.fromU64 rd d) :=
  and_mask_rd _ _ _ _

theorem fromF32 (rd : BsReg) (d : DataWord) : Statement (.fromF32 rd d) :=
  and_mask_rd _ _ _ _

theorem fromNum (rd : BsReg) (w : Imm) (d : DataWord) : Statement (.fromNum rd w d) :=
  and_mask_rd_imm _ _ _ _

theorem asU16 (rs : BsReg) : Statement (.asU16 rs) :=
  and_mask_rs _ _ _ _

theorem asU32 (rs : BsReg) : Statement (.asU32 rs) :=
  and_mask_rs _ _ _ _

theorem asI32 (rs : BsReg) : Statement (.asI32 rs) :=
  and_mask_rs _ _ _ _

theorem asU64 (rs : BsReg) : Statement (.asU64 rs) :=
  and_mask_rs _ _ _ _

theorem asF32 (rs : BsReg) : Statement (.asF32 rs) :=
  and_mask_rs _ _ _ _

theorem asNum (rs : BsReg) : Statement (.asNum rs) :=
  and_mask_rs _ _ _ _

theorem wU16 (d : DataWord) : Statement (.wU16 d) :=
  and_mask_none _ _ _ _

theorem wU32 (d : DataWord) : Statement (.wU32 d) :=
  and_mask_none _ _ _ _

theorem wI32 (d : DataWord) : Statement (.wI32 d) :=
  and_mask_none _ _ _ _

theorem wU64 (d : DataWord) : Statement (.wU64 d) :=
  and_mask_none _ _ _ _

theorem wF32 (d : DataWord) : Statement (.wF32 d) :=
  and_mask_none _ _ _ _

theorem wNum (w : Imm) (d : DataWord) : Statement (.wNum w d) :=
  and_mask_imm _ _ _ _

theorem wBits (rs : BsReg) : Statement (.wBits rs) :=
  and_mask_rs _ _ _ _

theorem wFlush (rd : BsReg) : Statement (.wFlush rd) :=
  and_mask_rd _ _ _ _

theorem rU16 : Statement (.rU16) :=
  and_mask_none _ _ _ _

theorem rU32 : Statement (.rU32) :=
  and_mask_none _ _ _ _

theorem rI32 : Statement (.rI32) :=
  and_mask_none _ _ _ _

theorem rU64 : Statement (.rU64) :=
  and_mask_none _ _ _ _

theorem rF32 : Statement (.rF32) :=
  and_mask_none _ _ _ _

theorem rNum (w : Imm) : Statement (.rNum w) :=
  and_mask_imm _ _ _ _

theorem rBits (rd : BsReg) (n : DataWord) : Statement (.rBits rd n) :=
  and_mask_rd _ _ _ _

theorem rSkip (n : DataWord) : Statement (.rSkip n) :=
  and_mask_none _ _ _ _

theorem rLoad (rs : BsReg) : Statement (.rLoad rs) :=
  and_mask_rs _ _ _ _

theorem schFd (i : Imm) (d : DataWord) : Statement (.schFd i d) :=
  and_mask_imm _ _ _ _

theorem schDef (i : Imm) (d : DataWord) : Statement (.schDef i d) :=
  and_mask_imm _ _ _ _

theorem fvWr (i : Imm) (d : DataWord) : Statement (.fvWr i d) :=
  and_mask_imm _ _ _ _

theorem fvRd (i : Imm) : Statement (.fvRd i) :=
  and_mask_imm _ _ _ _

theorem feEnc (rd : BsReg) (v : DataWord) : Statement (.feEnc rd v) :=
  and_mask_rd _ _ _ _

theorem fdHdr : Statement (.fdHdr) :=
  and_mask_none _ _ _ _

theorem fdBody (v : DataWord) : Statement (.fdBody v) :=
  and_mask_none _ _ _ _

theorem fdSkip : Statement (.fdSkip) :=
  and_mask_none _ _ _ _

end Sys2Proof.Laws.RowSelected
end

