-- ==== Sys2Proof/Laws/Rows.lean ====
section
/-!
SUPPORT. The decoder against the rows of the opcode table.
-/

namespace Sys2Proof

open Sys2Proof.Spec Sys2Proof.Laws

/-- The opcode of a word that a row whose mask covers OP selects. -/
theorem opField_of_masked {cw k m : CommandWord} (h : cw &&& k = m) (hk : opField k = 0xFF) :
    opField cw = opField m := by
  rw [← h, (fields_and cw k).1, hk]; exact (and_ones8 _).symm

/-- The fields of a word, masked, are the fields of the match. -/
theorem fields_of_masked {cw k m : CommandWord} (h : cw &&& k = m) :
    opField cw &&& opField k = opField m ∧ rdField cw &&& rdField k = rdField m ∧
      rsField cw &&& rsField k = rsField m ∧ immField cw &&& immField k = immField m := by
  subst h
  obtain ⟨a, b, c, d⟩ := fields_and cw k
  exact ⟨a.symm, b.symm, c.symm, d.symm⟩

/-- What the decoder accepts is selected by its command's row. -/
theorem decodeWord_row {cw : CommandWord} {d : DataWord} {text : List Byte} {i : Instr}
    (h : decodeWord cw d text = .ok i) : cw &&& (RowSelected.row i).2 = (RowSelected.row i).1 := by
  unfold decodeWord at h
  split at h
  all_goals first
    | (rcases selectRow_eq_ok.1 h with ⟨hm, rfl⟩; exact hm)
    | cases h

/-- Every command's row is in the table. -/
theorem row_mem (i : Instr) : (mnemonic i, RowSelected.row i) ∈ opcodeRows := by
  have h : opcodeRows.find? (fun r => r.1 == mnemonic i) = some (mnemonic i, RowSelected.row i) := by
    cases i <;> rfl
  exact List.mem_of_find?_eq_some h

/-- No two rows of the table share a mnemonic. -/
theorem opcodeRows_nodup : (opcodeRows.map Prod.fst).Nodup := by decide

/-- A row of the table with a command's mnemonic is the command's. -/
theorem row_unique {i : Instr} {r : Mnemonic × CommandWord × CommandWord} (h : r ∈ opcodeRows)
    (hn : mnemonic i = r.1) : r = (mnemonic i, RowSelected.row i) :=
  List.inj_on_of_nodup_map opcodeRows_nodup h (row_mem i) hn.symm

end Sys2Proof
end

