-- ==== Sys2Proof/Tests/Slice0.lean ====
section
/-!
SUPPORT. The model's own tests. Expected results are those of 95_test_vectors.md (V…) or of the rule named; command
words are written out from 30_encoding.md R71 and R76. The theorems named test_witness_… show concrete values that
meet the hypotheses of the statements in Certificates/Slice0/Obligations.lean.
-/

namespace Sys2Proof.Tests

open Sys2Proof Sys2Proof.Machine Sys2Proof.Spec

/-! ### States -/

/-- A small legal instance after reset: CAP_BITS = 256, MAX_FIELDS = 3. -/
def base : State := State.resetWith { capBits := 256, maxFields := 3 }

/-- The state after a command, which always is a next state. -/
def after (i : Instr) (s : State) : State :=
  match exec i s with
  | .next t => t
  | .fault _ => s
  | .refused _ => s

/-- The 3-field schema of 95_test_vectors.md. -/
def schema : State :=
  { base with
    schTag := 0xBEEF
    schNf := 3
    schFd := [⟨.u16, 16, 1⟩, ⟨.i32, 32, 1⟩, ⟨.u32, 32, 3⟩]
    schDef := [1, 2, 3]
    fv := [7, 0xFFFFFFFFFFFFFFFE, 0x12345678] }

/-- The frame of V45-01. -/
def frame : BitString :=
  bitsOf 32 0xBEEF ++ bitsOf 32 80 ++ bitsOf 16 7 ++ bitsOf 32 0x7FFFFFFE ++ bitsOf 32 0x12345678

/-- The state of V46-02: the frame loaded and its header latched. -/
def latched : State :=
  { schema with
    rSrc := frame
    rPos := 64
    fdTag := 0xBEEF
    fdLen := 80
    fdPstart := 64
    fdHvalid := true }

/-- The 80-bit source of 95_test_vectors.md section 2.4. -/
def source : State := { base with rSrc := bitsOf 80 0xABCD7FFFFFFEC0500000 }

/-- The digits `0101` in `BS[1]`. -/
def holding : State := base.writeBS 1 [false, true, false, true]

/-- A state in which a transaction is next on the port. -/
def sent (t : Transaction) : State := { base with hostIn := [.transaction t] }

/-- A way to the invariant of a state of the small instance without a fault. -/
theorem inv_of {s : State} {f g h : Descriptor} (hfd : s.schFd = [f, g, h])
    (hc : s.params = { capBits := 256, maxFields := 3 } ∧
      (∀ r : BsReg, (s.readBS r).length ≤ 256) ∧ s.wBuf.length ≤ 256 ∧ s.rSrc.length ≤ 256 ∧
      s.rPos ≤ s.rSrc.length ∧
      (s.fdHvalid = true → s.rPos = s.fdPstart.toNat ∧ 64 ≤ s.fdPstart.toNat) ∧ s.schNf ≤ 3 ∧
      s.schDef.length = 3 ∧ s.fv.length = 3 ∧ f.wf = true ∧ g.wf = true ∧ h.wf = true ∧
      s.status = Status.clear ∧ s.faultCmd = 0 ∧ s.faultInfo = 0) : s.Inv := by
  obtain ⟨h1, h2, h3, h4, h5, h6, h7, h8, h9, hf, hg, hh, h10, h11, h12⟩ := hc
  refine ⟨?_, ?_, ?_, ?_, h5, h6, ?_, ?_, ?_, ?_, ?_, ?_⟩
  · rw [h1]; decide
  all_goals try rw [h1]; assumption
  · rw [h1, hfd]; rfl
  · intro i
    unfold State.descriptor
    rw [hfd]
    rcases i with _ | _ | _ | i <;> first | assumption | rfl
  · exact ⟨by rw [h10]; rfl, by rw [h10]; rfl, fun _ => ⟨h11, h12⟩⟩

theorem base_inv : base.Inv :=
  inv_of (f := Descriptor.reset) (g := Descriptor.reset) (h := Descriptor.reset) rfl (by decide)

theorem schema_inv : schema.Inv := inv_of rfl (by decide)

theorem latched_inv : latched.Inv := inv_of rfl (by decide +kernel)

/-! ### Well-formedness: a text of more than TEXT_MAX bytes is refused (30_encoding.md R74) -/

theorem wf_replicate (n : Nat) (c : Byte) (rd : BsReg) :
    (Instr.bsText rd (List.replicate n c)).wf = decide (n ≤ 65535) ∧
      (Instr.isBin (List.replicate n c)).wf = decide (n ≤ 65535) := by simp [Instr.wf, textFits]

theorem test_wf_refuses_bs_text_too_long : (Instr.bsText 0 (List.replicate 65536 0x30)).wf = false :=
  (wf_replicate 65536 0x30 0).1

theorem test_wf_refuses_is_bin_too_long : (Instr.isBin (List.replicate 65536 0x30)).wf = false :=
  (wf_replicate 65536 0x30 0).2

/-! ### Decoding: a word of every row, written out from its fields -/

theorem test_decode_control :
    decode ⟨0x01000100, 0, []⟩ = .ok (.rdreg 0x100) ∧
    decode ⟨0x0200000B, 0xBEEF, []⟩ = .ok (.wrreg 0x00B 0xBEEF) ∧
    decode ⟨0x03000000, 0, []⟩ = .ok .clrst := by decide

theorem test_decode_bitstring_buffer :
    decode ⟨0x10A00002, 0, [0x61, 0x62]⟩ = .ok (.bsText 10 [0x61, 0x62]) ∧
    decode ⟨0x11010000, 0, []⟩ = .ok (.bsStr 1) ∧
    decode ⟨0x12000003, 0, [0x30, 0x31, 0x32]⟩ = .ok (.isBin [0x30, 0x31, 0x32]) ∧
    decode ⟨0x130F0000, 0, []⟩ = .ok (.bsLen 15) := by decide

theorem test_decode_from :
    decode ⟨0x20000000, 0xABCD, []⟩ = .ok (.fromU16 0 0xABCD) ∧
    decode ⟨0x21200000, 5, []⟩ = .ok (.fromU32 2 5) ∧
    decode ⟨0x22500000, 0xFFFFFFFFFFFFFFFF, []⟩ = .ok (.fromI32 5 0xFFFFFFFFFFFFFFFF) ∧
    decode ⟨0x23100000, 1, []⟩ = .ok (.fromU64 1 1) ∧
    decode ⟨0x24F00000, 0x3FC00000, []⟩ = .ok (.fromF32 15 0x3FC00000) ∧
    decode ⟨0x2530000C, 0xABC, []⟩ = .ok (.fromNum 3 12 0xABC) := by decide

theorem test_decode_as :
    decode ⟨0x30010000, 0, []⟩ = .ok (.asU16 1) ∧ decode ⟨0x31020000, 0, []⟩ = .ok (.asU32 2) ∧
    decode ⟨0x32030000, 0, []⟩ = .ok (.asI32 3) ∧ decode ⟨0x33040000, 0, []⟩ = .ok (.asU64 4) ∧
    decode ⟨0x34080000, 0, []⟩ = .ok (.asF32 8) ∧ decode ⟨0x350F0000, 0, []⟩ = .ok (.asNum 15) := by
  decide

theorem test_decode_writer :
    decode ⟨0x40000000, 0xABCD, []⟩ = .ok (.wU16 0xABCD) ∧
    decode ⟨0x41000000, 0xBEEF, []⟩ = .ok (.wU32 0xBEEF) ∧
    decode ⟨0x42000000, 1, []⟩ = .ok (.wI32 1) ∧ decode ⟨0x43000000, 2, []⟩ = .ok (.wU64 2) ∧
    decode ⟨0x44000000, 0xC0500000, []⟩ = .ok (.wF32 0xC0500000) ∧
    decode ⟨0x45000003, 5, []⟩ = .ok (.wNum 3 5) ∧
    decode ⟨0x46010000, 0, []⟩ = .ok (.wBits 1) ∧ decode ⟨0x47700000, 0, []⟩ = .ok (.wFlush 7) := by
  decide

theorem test_decode_reader :
    decode ⟨0x50000000, 0, []⟩ = .ok .rU16 ∧ decode ⟨0x51000000, 0, []⟩ = .ok .rU32 ∧
    decode ⟨0x52000000, 0, []⟩ = .ok .rI32 ∧ decode ⟨0x53000000, 0, []⟩ = .ok .rU64 ∧
    decode ⟨0x54000000, 0, []⟩ = .ok .rF32 ∧ decode ⟨0x55000010, 0, []⟩ = .ok (.rNum 16) ∧
    decode ⟨0x56700000, 17, []⟩ = .ok (.rBits 7 17) ∧
    decode ⟨0x57000000, 0x10000000000, []⟩ = .ok (.rSkip 0x10000000000) ∧
    decode ⟨0x58030000, 0, []⟩ = .ok (.rLoad 3) := by decide

theorem test_decode_frames :
    decode ⟨0x60000003, 0x0000000200000340, []⟩ = .ok (.schFd 3 0x0000000200000340) ∧
    decode ⟨0x61000002, 0x55, []⟩ = .ok (.schDef 2 0x55) ∧
    decode ⟨0x6200001F, 0xDEAD, []⟩ = .ok (.fvWr 31 0xDEAD) ∧
    decode ⟨0x6300001F, 0, []⟩ = .ok (.fvRd 31) ∧
    decode ⟨0x64400000, 3, []⟩ = .ok (.feEnc 4 3) ∧ decode ⟨0x65000000, 0, []⟩ = .ok .fdHdr ∧
    decode ⟨0x66000000, 2, []⟩ = .ok (.fdBody 2) ∧ decode ⟨0x67000000, 0, []⟩ = .ok .fdSkip := by
  decide

/-- A data word no command of the row uses is ignored (30_encoding.md R73). -/
theorem test_decode_ignores_unused_data :
    decode ⟨0x65000000, 0xFFFFFFFFFFFFFFFF, []⟩ = .ok .fdHdr := by decide

/-- 30_encoding.md R72, R77: V40-05, V40-15, and opcodes at the edges of the groups. -/
theorem test_decode_refuses_by_name :
    decode ⟨0x10110001, 0, [0x31]⟩ = .error (.reservedField 0x10) ∧
    decode ⟨0x13010001, 0, []⟩ = .error (.reservedField 0x13) ∧
    decode ⟨0x00000000, 0, []⟩ = .error (.unassignedOpcode 0x00) ∧
    decode ⟨0x04000000, 0, []⟩ = .error (.unassignedOpcode 0x04) ∧
    decode ⟨0x68000000, 0, []⟩ = .error (.unassignedOpcode 0x68) ∧
    decode ⟨0xFFFFFFFF, 0, []⟩ = .error (.unassignedOpcode 0xFF) ∧
    decode ⟨0x10000002, 0, [0x31]⟩ = .error (.textLength 2) := by decide

/-- The numbering of a transaction's bits: word, data word, text (assumption log 9). -/
theorem test_decode_table_word :
    decodeTableWord 32 0x01000100 = some (.rdreg 0x100) ∧
    decodeTableWord 96 0xABCD20030000 = none ∧
    decodeTableWord 96 0xABCD20000000 = some (.fromU16 0 0xABCD) ∧
    decodeTableWord 112 0x3130000000000000000010500002 = some (.bsText 5 [0x30, 0x31]) := by decide

theorem test_fetch_word_is_run_next :
    step (State.reset.withFetchWord 96 0xABCD42000000) =
      exec (.wI32 0xABCD) { State.reset with hostIn := [] } := rfl

/-! ### The digits the other tests are written in -/

/-- 00_scope.md R11 and V41-01, digit by digit. -/
theorem test_digits_are_most_significant_first :
    bitsOf 16 0xABCD = [true, false, true, false, true, false, true, true, true, true, false, false,
      true, true, false, true] ∧ uval [true, false, true, true] = 11 := by decide

/-! ### One step of each command -/

/-- V44-01, and STATUS after a fault (10_state.md R34): cause 2 in both cause fields, ERR set. -/
theorem test_rdreg : (after (.rdreg 0x100) base).res = 0x10 ∧
    (after (.rdreg 0) (after (.asU16 0) base)).res = 0x221 := by decide

theorem test_wrreg : (after (.wrreg 0x001 0xFFFFFFFF40000000) base).i32Offset = 0x40000000 ∧
    (after (.wrreg 0x002 3) base).lenpol = .framed ∧ (after (.wrreg 0x00C 4) base).schNf = 0 := by decide

/-- 47_control.md R242. -/
theorem test_clrst : (after .clrst (after (.asU16 0) base)).status.word = 0 ∧
    (after .clrst (after (.asU16 0) base)).faultCmd = 0 := by decide

/-- V40-01. -/
theorem test_bs_text :
    (after (.bsText 0 [0x30, 0x31, 0x30, 0x31]) base).readBS 0 = [false, true, false, true] := by decide

/-- V40-03. -/
theorem test_bs_text_invalid_character :
    (after (.bsText 0 [0x30, 0x31, 0x32]) base).faultInfo = 0x0000003200000002 ∧
    (after (.bsText 0 [0x30, 0x31, 0x32]) base).faultCmd = 0x10000003 := by decide

/-- V40-06. -/
theorem test_bs_str : (after (.bsStr 1) holding).hostOut =
    [⟨false, none, 0, [0x30, 0x31, 0x30, 0x31]⟩] := by decide

/-- V40-07 to V40-09. -/
theorem test_is_bin : (after (.isBin [0x30, 0x31, 0x30, 0x31]) base).res = 1 ∧
    (after (.isBin [0x30, 0x31, 0x32]) base).res = 0 ∧ (after (.isBin []) base).res = 0 := by decide

/-- V40-13. -/
theorem test_bs_len : (after (.bsLen 1) holding).res = 4 := by decide

/-- V41-02, V41-03. -/
theorem test_from_u16 : (after (.fromU16 0 0xFFFF) base).readBS 0 = List.replicate 16 true ∧
    (after (.fromU16 0 0x10000) base).faultInfo = 0x10 := by decide

/-- V41-05, V41-07. -/
theorem test_from_u32 : (after (.fromU32 2 5) base).readBS 2 = bitsOf 32 5 ∧
    (after (.fromU32 0 0x100000000) base).faultInfo = 0x20 := by decide

/-- V41-10, V41-12, V41-16. -/
theorem test_from_i32 : (after (.fromI32 0 0xFFFFFFFFFFFFFFFF) base).readBS 0 = bitsOf 32 0x7FFFFFFF ∧
    (after (.fromI32 0 0xFFFFFFFF80000000) base).readBS 0 = bitsOf 32 0 ∧
    (after (.fromI32 0 0xFFFFFFFF) base).faultInfo = 0x1F := by decide

/-- V41-20. -/
theorem test_from_u64 :
    (after (.fromU64 0 0x0123456789ABCDEF) base).readBS 0 = bitsOf 64 0x89ABCDEF01234567 := by decide

/-- V41-25, V41-27. -/
theorem test_from_f32 : (after (.fromF32 0 0xC0500000) base).readBS 0 = bitsOf 32 0xC0500000 ∧
    (after (.fromF32 0 0xFFFFFFFF80000000) base).readBS 0 = bitsOf 32 0x80000000 := by decide

/-- V41-34, V41-46. -/
theorem test_from_num : (after (.fromNum 3 12 0xABC) base).readBS 3 = bitsOf 12 0xABC ∧
    (after (.fromNum 0 0 5) base).status.fcause = some .illegalOperand := by decide

/-- V41-38, V41-37. -/
theorem test_as_u16 : (after (.asU16 1) (base.writeBS 1 (List.replicate 16 true))).res = 0xFFFF ∧
    (after (.asU16 1) (base.writeBS 1 (List.replicate 15 true))).faultInfo = 0x000000100000000F := by
  decide

/-- V41-41, V41-42. -/
theorem test_as_u32 : (after (.asU32 1) (base.writeBS 1 (List.replicate 32 true))).res = 0xFFFFFFFF ∧
    (after (.asU32 1) (base.writeBS 1 (List.replicate 33 true))).faultInfo = 0x0000002000000021 := by
  decide

/-- V41-29, V41-33. -/
theorem test_as_i32 : (after (.asI32 1) (base.writeBS 1 (bitsOf 32 0))).res = 0xFFFFFFFF80000000 ∧
    (after (.asI32 1) (after (.wrreg 1 0xFFFFFFFF) (base.writeBS 1 (bitsOf 32 0)))).res =
      0xFFFFFFFF00000001 := by decide

/-- V41-19. -/
theorem test_as_u64 :
    (after (.asU64 1) (base.writeBS 1 (bitsOf 64 0x0000000100000000))).res = 1 := by decide

/-- V41-28: the smallest subnormal. -/
theorem test_as_f32 : (after (.asF32 1) (base.writeBS 1 (bitsOf 32 1))).res = 1 ∧
    (after (.asF32 1) (base.writeBS 1 (bitsOf 32 0xFF800000))).res = 0xFF800000 := by decide

/-- V41-39, V41-45. -/
theorem test_as_num : (after (.asNum 1) (base.writeBS 1 (List.replicate 17 true))).res = 0x1FFFF ∧
    (after (.asNum 1) (base.writeBS 1 (List.replicate 65 true))).faultInfo = 0x41 := by decide

/-- V42-01. -/
theorem test_w_u16 : (after (.wU16 0xABCD) base).wBuf = bitsOf 16 0xABCD := by decide

/-- V42-03. -/
theorem test_w_u32 : (after (.wU32 0xBEEF) base).wBuf = bitsOf 32 0xBEEF := by decide

/-- V42-11. -/
theorem test_w_i32 : (after (.wI32 0xFFFFFFFFFFFFFFFE) base).wBuf = bitsOf 32 0x7FFFFFFE := by decide

/-- V42-04, on the digits of V42-03. -/
theorem test_w_u64 : (after (.wU64 0x0000000100000002) { base with wBuf := bitsOf 32 0xBEEF }).wBuf =
    bitsOf 32 0xBEEF ++ bitsOf 32 2 ++ bitsOf 32 1 := by decide

/-- V42-12. -/
theorem test_w_f32 : (after (.wF32 0xC0500000) base).wBuf = bitsOf 32 0xC0500000 := by decide

/-- V42-05, V42-16 at this instance's capacity. -/
theorem test_w_num : (after (.wNum 3 5) base).wBuf = [true, false, true] ∧
    (after (.wNum 1 0) { base with wBuf := List.replicate 256 false }).faultInfo = 257 := by
  decide +kernel

/-- 42_cursor_writer.md R167. -/
theorem test_w_bits : (after (.wBits 1) { holding with wBuf := [true] }).wBuf =
    [true, false, true, false, true] := by decide

/-- V42-09, V42-10: one shot. -/
theorem test_w_flush : (after (.wFlush 7) { base with wBuf := [true, false] }).readBS 7 = [true, false] ∧
    (after (.wFlush 7) { base with wBuf := [true, false] }).res = 2 ∧
    (after (.wFlush 7) { base with wBuf := [true, false] }).wBuf = [] := by decide

/-- V43-02. -/
theorem test_r_u16 : (after .rU16 source).res = 0xABCD ∧ (after .rU16 source).rPos = 16 := by
  decide +kernel

/-- V43-14. -/
theorem test_r_u32 : (after .rU32 { base with rSrc := bitsOf 64 0x0000000100000000 }).res = 1 := by decide

/-- V43-03. -/
theorem test_r_i32 : (after .rI32 { source with rPos := 16 }).res = 0xFFFFFFFFFFFFFFFE := by
  decide +kernel

/-- V43-09. -/
theorem test_r_u64 : (after .rU64 { source with rPos := 16 }).res = 0xC05000007FFFFFFE := by
  decide +kernel

/-- V43-04. -/
theorem test_r_f32 : (after .rF32 { source with rPos := 48 }).res = 0xC0500000 := by decide +kernel

/-- V43-08, V43-13: no swap. -/
theorem test_r_num : (after (.rNum 16) source).res = 0xABCD ∧
    (after (.rNum 64) { base with rSrc := bitsOf 64 0x0000000100000000 }).res = 0x0000000100000000 := by
  decide +kernel

/-- V43-16, V43-11. -/
theorem test_r_bits : (after (.rBits 7 16) source).readBS 7 = bitsOf 16 0xABCD ∧
    (after (.rBits 7 17) { source with rPos := 80 }).faultInfo = 0x11 := by decide +kernel

/-- V43-06: the request is clipped. -/
theorem test_r_skip : (after (.rSkip 0x10000000000) source).faultInfo = 0x00000050FFFFFFFF ∧
    (after (.rSkip 80) source).rPos = 80 := by decide +kernel

/-- V43-01, V43-17: the latch is cleared. -/
theorem test_r_load : (after (.rLoad 1) { holding with rPos := 3, fdHvalid := true }).rSrc =
      [false, true, false, true] ∧
    (after (.rLoad 1) { holding with rPos := 3, fdHvalid := true }).rPos = 0 ∧
    (after (.rLoad 1) { holding with rPos := 3, fdHvalid := true }).fdHvalid = false := by decide

/-- V44-02, V44-07. -/
theorem test_sch_fd : (after (.schFd 0 0x000000010000F890) base).descriptor 0 = ⟨.u16, 16, 1⟩ ∧
    (after (.schFd 0 0x20) base).status.fcause = some .illegalOperand := by decide

/-- V44-11. -/
theorem test_sch_def : (after (.schDef 2 0x55) base).schDef = [0, 0, 0x55] := by decide

/-- V44-13, and the bound of this instance. -/
theorem test_fv_wr : (after (.fvWr 2 0xDEAD) base).fv = [0, 0, 0xDEAD] ∧
    (after (.fvWr 3 0xDEAD) base).status.fcause = some .illegalOperand := by decide

/-- V44-13. -/
theorem test_fv_rd : (after (.fvRd 1) schema).res = 0xFFFFFFFFFFFFFFFE := by decide

/-- V45-01, V45-02. -/
theorem test_fe_enc : (after (.feEnc 4 3) schema).readBS 4 = frame ∧
    (after (.feEnc 5 2) schema).readBS 5 =
      bitsOf 32 0xBEEF ++ bitsOf 32 48 ++ bitsOf 16 7 ++ bitsOf 32 0x7FFFFFFE := by decide +kernel

/-- V45-06. -/
theorem test_fe_enc_range_error :
    (after (.feEnc 6 3) (schema.writeFieldValue 2 0x100000000)).faultInfo = 0x10220 := by decide +kernel

/-- V46-02. -/
theorem test_fd_hdr : (after .fdHdr { schema with rSrc := frame }).res = 0x000000500000BEEF ∧
    (after .fdHdr { schema with rSrc := frame }).fdPstart = 64 := by decide +kernel

/-- V46-03: UNDER, the default of the absent field, the skip. -/
theorem test_fd_body : (after (.fdBody 2) latched).fv = [7, 0xFFFFFFFFFFFFFFFE, 3] ∧
    (after (.fdBody 2) latched).rPos = 144 ∧ (after (.fdBody 2) latched).status.word = 0x002 := by
  decide +kernel

/-- V46-06: the latch is kept. -/
theorem test_fd_body_exact :
    (after (.fdBody 2) { latched with lenpol := .exact }).faultInfo = 0x0000005000000030 ∧
    (after (.fdBody 2) { latched with lenpol := .exact }).fdHvalid = true := by decide +kernel

/-- V46-12, and a whole frame skipped (46_frame_decoder.md R224). -/
theorem test_fd_skip : (after .fdSkip { latched with rSrc := frame.take 112 }).faultInfo =
      0x0000003000000050 ∧ (after .fdSkip latched).rPos = 144 := by decide +kernel

/-! ### Witnesses: encoding and steps -/

theorem test_witness_decode_inverts_encode :
    (Instr.bsText 15 (List.replicate 65535 0x31)).wf = true := (wf_replicate 65535 0x31 15).1

theorem test_witness_encode_inverts_decode :
    decode ⟨0x12000001, 7, [0x31]⟩ = .ok (.isBin [0x31]) := by decide

theorem test_witness_decoder_follows_table :
    (Mnemonic.BS_TEXT, (0x10000000 : CommandWord), (0xFF0F0000 : CommandWord)) ∈ opcodeRows ∧
    [(0x30 : Byte)].length = textLen 0x10000001 := by decide

theorem test_witness_illegal_word :
    (sent ⟨0x10110001, 0, [0x31]⟩).hostIn = .transaction ⟨0x10110001, 0, [0x31]⟩ :: [] ∧
    textLen 0x10110001 ≤ [(0x31 : Byte)].length ∧
    ∀ row ∈ opcodeRows, (0x10110001 : CommandWord) &&& row.2.2 ≠ row.2.1 := by decide

theorem test_witness_step_runs :
    (sent ⟨0x10000001, 0, [0x31, 0x30]⟩).hostIn = .transaction ⟨0x10000001, 0, [0x31, 0x30]⟩ :: [] ∧
    textLen 0x10000001 ≤ [(0x31 : Byte), 0x30].length ∧
    decode ⟨0x10000001, 0, [(0x31 : Byte), 0x30].take (textLen 0x10000001)⟩ = .ok (.bsText 0 [0x31]) := by
  decide

theorem test_witness_waits : base.hostIn = [] ∧
    (sent ⟨0x10000001, 0, []⟩).hostIn = [.transaction ⟨0x10000001, 0, []⟩] ∧
    ([] : List Byte).length < textLen 0x10000001 := by decide

theorem test_witness_reset_event :
    { base with hostIn := [.reset] }.hostIn = .reset :: [] ∧
    { base with hostIn := [.transaction ⟨0x10000001, 0, []⟩, .reset] }.hostIn =
      .transaction ⟨0x10000001, 0, []⟩ :: .reset :: [] ∧
    ([] : List Byte).length < textLen 0x10000001 := by decide

theorem test_witness_legal_parameters :
    Params.Valid ⟨128, 1⟩ ∧ Params.Valid ⟨4294967295, 256⟩ := by decide

theorem test_witness_step_keeps_invariant :
    { latched with hostIn := [.transaction ⟨0x10000001, 0, [0x31]⟩] }.Inv ∧
    ∃ t, step { latched with hostIn := [.transaction ⟨0x10000001, 0, [0x31]⟩] } = .next t :=
  ⟨inv_of rfl (by decide +kernel), _, rfl⟩

theorem test_witness_parameters : ∃ t, step base = .next t := ⟨_, rfl⟩

/-! ### Witnesses: faults -/

theorem test_witness_completed_command : ∃ t, exec (.bsStr 1) holding = .next t ∧
    Instr.bsStr 1 ≠ .clrst ∧
    t.hostOut = holding.hostOut ++ [⟨false, none, t.res, [0x30, 0x31, 0x30, 0x31]⟩] :=
  ⟨_, rfl, by decide, rfl⟩

/-- One command for each cause that a command raises. -/
theorem test_witness_causes :
    (∃ t info, exec (.bsText 0 [0x32]) base = .next t ∧
      t = faulted base (commandWord (.bsText 0 [0x32])) .invalidCharacter info) ∧
    (∃ t info, exec (.asU16 0) base = .next t ∧
      t = faulted base (commandWord (.asU16 0)) .lengthMismatch info) ∧
    (∃ t info, exec .rU16 base = .next t ∧ t = faulted base (commandWord .rU16) .readOverrun info) ∧
    (∃ t info, exec (.fdBody 2) { base with fdHvalid := true, fdLen := 1, lenpol := .exact } = .next t ∧
      t = faulted { base with fdHvalid := true, fdLen := 1, lenpol := .exact } (commandWord (.fdBody 2))
        .frameConsistency info) ∧
    (∃ t info, exec (.fromU16 0 65536) base = .next t ∧
      t = faulted base (commandWord (.fromU16 0 65536)) .rangeError info) ∧
    (∃ t info, exec (.wBits 1) { holding with params := ⟨3, 1⟩ } = .next t ∧
      t = faulted { holding with params := ⟨3, 1⟩ } (commandWord (.wBits 1)) .bufferOverflow info) ∧
    (∃ t info, exec (.rdreg 0x012) base = .next t ∧
      t = faulted base (commandWord (.rdreg 0x012)) .illegalOperand info) ∧
    ∃ t info, exec .fdSkip base = .next t ∧
      t = faulted base (commandWord .fdSkip) .sequenceError info :=
  ⟨⟨_, _, rfl, rfl⟩, ⟨_, _, rfl, rfl⟩, ⟨_, _, rfl, rfl⟩, ⟨_, _, rfl, rfl⟩, ⟨_, _, rfl, rfl⟩,
    ⟨_, _, rfl, rfl⟩, ⟨_, _, rfl, rfl⟩, ⟨_, _, rfl, rfl⟩⟩

/-! ### Witnesses: digits and conversions -/

theorem test_witness_digits : 15 < 16 ∧ 65535 < 2 ^ 16 ∧ 2 ^ 16 ≤ 65536 ∧ 1 ≤ 16 := by decide

theorem test_witness_i32_encodable :
    I32Encodable (2 ^ 31 - 1) (2 ^ 31) ∧ I32Encodable (-2 ^ 31) (2 ^ 31) ∧ I32Encodable 0 0 ∧
    ¬I32Encodable (2 ^ 31) (2 ^ 31) ∧ ¬I32Encodable (-2 ^ 31 - 1) (2 ^ 31) ∧ ¬I32Encodable (-1) 0 := by
  unfold I32Encodable; decide

theorem test_witness_default_i32 : (-2 ^ 31 : Int) ≤ -2 ^ 31 ∧ (2 ^ 31 - 1 : Int) ≤ 2 ^ 31 - 1 ∧
    (-2 ^ 31 : Int) ≤ 2 ^ 31 - 1 := by decide

theorem test_witness_offset_mismatch :
    encI32 none (-1) 0x40000000 = .ok (bitsOf 32 0x3FFFFFFF) ∧ (-1 : Int) < 0 := by decide

theorem test_witness_nan_patterns : NaNPattern 0x7FC00000 ∧ NaNPattern 0x7F800001 ∧
    NaNPattern 0xFFFFFFFF ∧ ¬NaNPattern 0x7F800000 ∧ ¬NaNPattern 0x7F7FFFFF := by
  unfold NaNPattern; decide

/-- Every view at the edge of its range; a NUM of 1 and of 64 bits. -/
theorem test_witness_view_fits :
    Fits .u16 0 0xFFFF 0 ∧ Fits .u32 0 0xFFFFFFFF 0 ∧ Fits .i32 0 0xFFFFFFFF80000000 0x80000000 ∧
    Fits .u64 0 0xFFFFFFFFFFFFFFFF 0 ∧ Fits .f32 0 0x7F800000 0 ∧ Fits .num 1 1 0 ∧
    Fits .num 64 0xFFFFFFFFFFFFFFFF 0 := by unfold Fits I32Encodable; decide

/-- Every view that has a range, just outside it. -/
theorem test_witness_view_does_not_fit :
    ¬Fits .u16 0 0x10000 0 ∧ ¬Fits .u32 0 0x100000000 0 ∧ ¬Fits .i32 0 0x80000000 0x80000000 ∧
    ¬Fits .num 1 2 0 ∧ ¬Fits .num 63 0x8000000000000000 0 := by unfold Fits I32Encodable; decide

theorem test_witness_lengths :
    LengthOk .u16 16 ∧ LengthOk .u32 32 ∧ LengthOk .i32 32 ∧ LengthOk .u64 64 ∧ LengthOk .f32 32 ∧
    LengthOk .num 1 ∧ LengthOk .num 64 ∧ ¬LengthOk .u16 15 ∧ ¬LengthOk .f32 33 ∧ ¬LengthOk .num 0 ∧
    ¬LengthOk .num 65 := by unfold LengthOk; decide

theorem test_witness_information_word : 65534 < 2 ^ 32 ∧ 4294967295 < 2 ^ 32 ∧ 255 < 2 ^ 8 ∧
    64 < 2 ^ 8 := by decide

/-! ### Witnesses: control and BitString commands -/

/-- The edges of the CSR map of a 3-field instance: the last register of each block and the first address
past it. -/
theorem test_witness_csr_map :
    csrNumber base 0x011 = some 0 ∧ csrNumber base 0x012 = none ∧ csrNumber base 0x0FF = none ∧
    csrNumber base 0x102 = some 0x10 ∧ csrNumber base 0x103 = none ∧
    csrNumber base 0x202 = some 0 ∧ csrNumber base 0x203 = none ∧ csrNumber base 0xFFFF = none := by
  decide

theorem test_witness_wrreg :
    (4 : DataWord).toNat % 4 = 0 ∧ (5 : DataWord).toNat % 4 = 1 ∧ (6 : DataWord).toNat % 4 = 2 ∧
    (7 : DataWord).toNat % 4 = 3 ∧ (low32 3).toNat ≤ base.params.maxFields ∧
    base.params.maxFields < (low32 4).toNat ∧ (0x000 : Imm).toNat ≠ 0x001 ∧ (0x000 : Imm).toNat ≠ 0x002 ∧
    (0x000 : Imm).toNat ≠ 0x00B ∧ (0x000 : Imm).toNat ≠ 0x00C := by decide

theorem test_witness_bs_text : (List.replicate 256 (0x31 : Byte)).length ≤ base.params.capBits ∧
    ∀ c ∈ List.replicate 256 (0x31 : Byte), c = 0x30 ∨ c = 0x31 :=
  ⟨by rw [List.length_replicate]; decide, fun _ h => .inr (List.eq_of_mem_replicate h)⟩

theorem test_witness_bs_text_too_long :
    (List.replicate 257 (0x32 : Byte)).length ≤ 65535 ∧
    base.params.capBits < (List.replicate 257 (0x32 : Byte)).length := by
  rw [List.length_replicate]; decide

/-- The bad byte first, and last in a text as long as the capacity. -/
theorem test_witness_bs_text_bad_byte :
    [(0x2F : Byte)].length ≤ base.params.capBits ∧ [(0x2F : Byte)] = [] ++ 0x2F :: [] ∧
    (List.replicate 255 (0x31 : Byte) ++ 0x32 :: []).length ≤ base.params.capBits ∧
    (∀ b ∈ List.replicate 255 (0x31 : Byte), b = 0x30 ∨ b = 0x31) ∧ (0x32 : Byte) ≠ 0x30 ∧
    (0x32 : Byte) ≠ 0x31 ∧ (0x2F : Byte) ≠ 0x30 ∧ (0x2F : Byte) ≠ 0x31 :=
  ⟨by decide, rfl, by decide +kernel, fun _ h => .inr (List.eq_of_mem_replicate h),
    by decide, by decide, by decide, by decide⟩

theorem test_witness_is_bin :
    ([0x30] : List Byte) ≠ [] ∧ (∀ c ∈ ([0x30] : List Byte), c = 0x30 ∨ c = 0x31) ∧
    ∃ c ∈ ([0x31, 0x32] : List Byte), c ≠ 0x30 ∧ c ≠ 0x31 := by decide

/-! ### Witnesses: codec, writer and reader commands -/

/-- Widths at both ends, in range and out of it. -/
theorem test_witness_width_operand : WidthOk .num 1 ∧ WidthOk .num 64 ∧ WidthOk .u16 0 ∧
    (0 : Imm).toNat = 0 ∧ 64 < (65 : Imm).toNat := by unfold WidthOk; decide

theorem test_witness_from_command :
    WidthOk .num 64 ∧ Fits .num (64 : Imm).toNat 0xFFFFFFFFFFFFFFFF base.i32Offset.toNat ∧
    WidthOk .i32 0 ∧ Fits .i32 (0 : Imm).toNat 0xFFFFFFFF80000000 base.i32Offset.toNat := by
  unfold WidthOk Fits I32Encodable; decide

theorem test_witness_from_command_rejects :
    WidthOk .i32 0 ∧ ¬Fits .i32 (0 : Imm).toNat 0xFFFFFFFF7FFFFFFF base.i32Offset.toNat := by
  unfold WidthOk Fits I32Encodable; decide

theorem test_witness_as_command :
    LengthOk .num (holding.readBS 1).length ∧ base.Inv ∧ ¬LengthOk .num (base.readBS 0).length :=
  ⟨by unfold LengthOk; decide, base_inv, by unfold LengthOk; decide⟩

/-- The buffer filled to the capacity exactly. -/
theorem test_witness_write_command :
    WidthOk .u16 0 ∧ Fits .u16 (0 : Imm).toNat 1 base.i32Offset.toNat ∧
    { base with wBuf := List.replicate 240 true }.wBuf.length + widthOf .u16 (0 : Imm).toNat ≤
      base.params.capBits := by unfold WidthOk Fits; decide +kernel

/-- One bit past the capacity. -/
theorem test_witness_write_command_rejects :
    WidthOk .u16 0 ∧ ¬Fits .u16 (0 : Imm).toNat 65536 base.i32Offset.toNat ∧
    Fits .u16 (0 : Imm).toNat 1 base.i32Offset.toNat ∧
    base.params.capBits <
      { base with wBuf := List.replicate 241 true }.wBuf.length + widthOf .u16 (0 : Imm).toNat := by
  unfold WidthOk Fits; decide +kernel

theorem test_witness_w_bits :
    { holding with wBuf := List.replicate 252 true }.wBuf.length + (holding.readBS 1).length ≤
      holding.params.capBits ∧
    holding.params.capBits <
      { holding with wBuf := List.replicate 253 true }.wBuf.length + (holding.readBS 1).length := by
  decide +kernel

/-- A read to the last bit, and one bit past it. -/
theorem test_witness_read_command :
    WidthOk .u16 0 ∧ { source with rPos := 64 }.rPos + widthOf .u16 (0 : Imm).toNat ≤ source.rSrc.length ∧
    source.rSrc.length - { source with rPos := 65 }.rPos < widthOf .u16 (0 : Imm).toNat := by
  unfold WidthOk; decide +kernel

theorem test_witness_r_bits :
    (80 : DataWord).toNat ≤ source.rSrc.length - source.rPos ∧
    source.rSrc.length - source.rPos < (81 : DataWord).toNat := by decide +kernel

/-! ### Witnesses: schema and frames -/

/-- The last field of the instance, and a NUM descriptor of 64 bits. -/
theorem test_witness_schema_commands :
    (2 : Imm).toNat < base.params.maxFields ∧
    (⟨.num, 64, 9⟩ : Descriptor).width.toNat = (0x0000000900000540 : DataWord).toNat % 2 ^ 7 ∧
    kindNumber (⟨.num, 64, 9⟩ : Descriptor).kind =
      (0x0000000900000540 : DataWord).toNat / 2 ^ 8 % 2 ^ 3 ∧
    (⟨.num, 64, 9⟩ : Descriptor).ver.toNat = (0x0000000900000540 : DataWord).toNat / 2 ^ 32 ∧
    (⟨.num, 64, 9⟩ : Descriptor).kind = .num ∧ 1 ≤ (⟨.num, 64, 9⟩ : Descriptor).width.toNat ∧
    (⟨.num, 64, 9⟩ : Descriptor).width.toNat ≤ 64 := by decide

/-- V44-08, V44-06, V44-07 and the first index past the instance. -/
theorem test_witness_schema_rejects :
    6 ≤ (0x610 : DataWord).toNat / 2 ^ 8 % 2 ^ 3 ∧
    (kindNumber .num = (0x541 : DataWord).toNat / 2 ^ 8 % 2 ^ 3 ∧
      ¬LengthOk .num ((0x541 : DataWord).toNat % 2 ^ 7)) ∧
    (kindNumber .u16 = (0x20 : DataWord).toNat / 2 ^ 8 % 2 ^ 3 ∧
      ¬LengthOk .u16 ((0x20 : DataWord).toNat % 2 ^ 7)) ∧
    base.params.maxFields ≤ (3 : Imm).toNat := by unfold LengthOk; decide

/-- Every field of the schema fits and none is a NaN. -/
theorem test_witness_fe_enc : schema.Inv ∧
    ∀ i, i < schema.schNf → Present schema (low32 3) i → FieldFits schema i ∧ FieldNotNaN schema i :=
  ⟨schema_inv, fun i hi _ =>
    match i, (show i < 3 from hi) with
    | 0, _ => ⟨show (7 : DataWord).toNat < 2 ^ 16 by decide, fun h => nomatch h⟩
    | 1, _ =>
      ⟨show I32Encodable (0xFFFFFFFFFFFFFFFE : DataWord).toInt (0x80000000 : BitVec 32).toNat by
        unfold I32Encodable; decide, fun h => nomatch h⟩
    | 2, _ => ⟨show (0x12345678 : DataWord).toNat < 2 ^ 32 by decide, fun h => nomatch h⟩⟩

/-- V45-06: the third field is the first that does not fit. -/
theorem test_witness_fe_enc_unfit :
    (schema.writeFieldValue 2 0x100000000).Inv ∧ 2 < (schema.writeFieldValue 2 0x100000000).schNf ∧
    (∀ j, j < 2 → Present (schema.writeFieldValue 2 0x100000000) (low32 3) j →
      FieldFits (schema.writeFieldValue 2 0x100000000) j) ∧
    Present (schema.writeFieldValue 2 0x100000000) (low32 3) 2 ∧
    ¬FieldFits (schema.writeFieldValue 2 0x100000000) 2 :=
  ⟨inv_of rfl (by decide), by decide, fun j hj _ =>
    match j, hj with
    | 0, _ => show (7 : DataWord).toNat < 2 ^ 16 by decide
    | 1, _ => show I32Encodable (0xFFFFFFFFFFFFFFFE : DataWord).toInt (0x80000000 : BitVec 32).toNat by
        unfold I32Encodable; decide,
    by unfold Present; decide, show ¬(0x100000000 : DataWord).toNat < 2 ^ 32 by decide⟩

/-- A header that is just there, and one bit short of it. -/
theorem test_witness_fd_hdr :
    { base with rSrc := List.replicate 64 true }.rPos + 64 ≤ (List.replicate 64 true).length ∧
    (List.replicate 63 true).length - { base with rSrc := List.replicate 63 true }.rPos < 64 := by
  decide

/-- A walk that ends at the source's end, under each policy. -/
theorem test_witness_fd_body : latched.Inv ∧ latched.fdHvalid = true ∧
    80 = payloadLength latched (low32 3) ∧ latched.rPos + 80 ≤ latched.rSrc.length ∧
    { latched with lenpol := .permissive }.lenpol = .permissive ∧
    { latched with lenpol := .exact }.lenpol = .exact ∧ 80 = latched.fdLen.toNat ∧
    latched.lenpol = .framed ∧ 80 ≤ latched.fdLen.toNat ∧
    latched.rPos + latched.fdLen.toNat ≤ latched.rSrc.length :=
  ⟨latched_inv, by decide +kernel⟩

/-- V46-08, V46-06 and V46-11: the source one bit short of the last field, a consumed count that is not the
declared one under EXACT, one above it under FRAMED, and a truncated frame under FRAMED. -/
theorem test_witness_fd_body_faults :
    base.fdHvalid = false ∧
    (latched.fdHvalid = true ∧ 2 < latched.schNf ∧ Present latched (low32 3) 2 ∧
      latched.rPos + offsetOf latched (low32 3) 2 ≤ (frame.take 143).length ∧
      (frame.take 143).length <
        latched.rPos + offsetOf latched (low32 3) 2 + (latched.descriptor 2).width.toNat) ∧
    ({ latched with lenpol := .exact }.Inv ∧ 48 = payloadLength latched (low32 2) ∧
      latched.rPos + 48 ≤ latched.rSrc.length ∧ 48 ≠ latched.fdLen.toNat) ∧
    ({ latched with fdLen := 79 }.Inv ∧ 80 = payloadLength latched (low32 3) ∧
      { latched with fdLen := 79 }.fdLen.toNat < 80) ∧
    ({ latched with rSrc := frame.take 143 }.Inv ∧ 48 < latched.fdLen.toNat ∧
      (frame.take 143).length < latched.rPos + latched.fdLen.toNat) :=
  ⟨rfl, by unfold Present; decide +kernel,
    ⟨inv_of rfl (by decide +kernel), by decide +kernel⟩,
    ⟨inv_of rfl (by decide +kernel), by decide +kernel⟩,
    inv_of rfl (by decide +kernel), by decide +kernel⟩

theorem test_witness_fd_skip : latched.fdHvalid = true ∧
    latched.fdLen.toNat ≤ latched.rSrc.length - latched.rPos ∧
    (frame.take 143).length - latched.rPos < latched.fdLen.toNat := by decide +kernel

/-- The 3-field schema is monotone; versions 3 and 2, and either policy. -/
theorem test_witness_lower_version : schema.Inv ∧ Monotone schema ∧ schema.lenpol ≠ .exact ∧
    { schema with lenpol := .permissive }.lenpol ≠ .exact ∧ (low32 2).toNat ≤ (low32 3).toNat :=
  ⟨schema_inv, fun i hi => by
    have h : i + 1 < 3 := hi
    rcases i with _ | _ | i
    all_goals first
      | decide
      | omega, by decide, by decide, by decide⟩

/-- Field 2 is the first beyond SCH.NF = 2; each frame command is one of those named. -/
theorem test_witness_fields_beyond_nf : { schema with schNf := 2 }.schNf ≤ 2 ∧
    { latched with schNf := 2 }.schNf ≤ 2 ∧
    mnemonic (.feEnc 4 3) ∈ [.FE_ENC, .FD_HDR, .FD_BODY, .FD_SKIP] ∧
    mnemonic .fdHdr ∈ [.FE_ENC, .FD_HDR, .FD_BODY, .FD_SKIP] ∧
    mnemonic (.fdBody 3) ∈ [.FE_ENC, .FD_HDR, .FD_BODY, .FD_SKIP] ∧
    mnemonic .fdSkip ∈ [.FE_ENC, .FD_HDR, .FD_BODY, .FD_SKIP] := by decide

/-! ### Witnesses: rules over all commands -/

theorem test_witness_latch :
    (∃ t, exec .fdHdr base = .next t) ∧ mnemonic .fdHdr = .FD_HDR ∧ mnemonic .fdSkip ∈ latchClearing ∧
    mnemonic .clrst ≠ .FD_HDR ∧ mnemonic .clrst ∉ latchClearing := ⟨⟨_, rfl⟩, by decide⟩

theorem test_witness_res_changes :
    ∃ t, exec (.bsLen 1) holding = .next t ∧ t.res ≠ holding.res := ⟨_, rfl, by decide⟩

theorem test_witness_storage_changes :
    (∃ t, exec (.bsText 1 []) holding = .next t ∧ t.readBS 1 ≠ holding.readBS 1) ∧
    (∃ t, exec (.wNum 1 1) base = .next t ∧ t.wBuf ≠ base.wBuf) ∧
    (∃ t, exec (.rLoad 1) holding = .next t ∧ t.rSrc ≠ holding.rSrc) ∧
    (∃ t, exec (.rSkip 1) source = .next t ∧ t.rPos ≠ source.rPos) ∧
    (∃ t, exec (.wrreg 0x00B 5) base = .next t ∧ t.schTag ≠ base.schTag) ∧
    (∃ t, exec (.schFd 0 0x120) base = .next t ∧ t.schFd ≠ base.schFd) ∧
    (∃ t, exec (.schDef 0 1) base = .next t ∧ t.schDef ≠ base.schDef) ∧
    ∃ t, exec (.fvWr 0 1) base = .next t ∧ t.fv ≠ base.fv :=
  ⟨⟨_, rfl, by decide⟩, ⟨_, rfl, by decide⟩, ⟨_, rfl, by decide⟩, ⟨_, rfl, by decide⟩,
    ⟨_, rfl, by decide⟩, ⟨_, rfl, by decide⟩, ⟨_, rfl, by decide⟩, _, rfl, by decide⟩

/-- A latched header of declared length 0 over 64 digits, one U16 field present at every version. -/
def overlong : State :=
  { base with rSrc := List.replicate 64 true, schNf := 1, fdHvalid := true, lenpol := .permissive }

theorem test_witness_header_changes :
    (∃ t, exec .fdHdr overlong = .next t ∧ t.fdTag ≠ overlong.fdTag) ∧
    ∃ t, exec (.fdBody 0) overlong = .next t ∧ t.fdConsumed ≠ overlong.fdConsumed :=
  ⟨⟨_, rfl, by decide +kernel⟩, _, rfl, by decide +kernel⟩

theorem test_witness_sticky_flags :
    (∃ t, exec (.fdBody 0) { overlong with fdLen := 17 } = .next t ∧ t.status.underrun = true ∧
      overlong.status.underrun = false) ∧
    ∃ t, exec (.fdBody 0) overlong = .next t ∧ t.status.overrun = true ∧
      overlong.status.overrun = false := ⟨⟨_, rfl, by decide +kernel⟩, _, rfl, by decide +kernel⟩

end Sys2Proof.Tests
end

section
/-!
PROOFS. The state after reset (10_state.md R42).
-/

namespace Sys2Proof.Machine

open Sys2Proof.Spec

/-! ### Reading the storage after reset -/

section ResetWith

variable (p : Params)

@[simp] theorem resetWith_readBS (r : BsReg) : (State.resetWith p).readBS r = [] :=
  Vector.getElem_replicate r.isLt

@[simp] theorem resetWith_descriptor (i : Nat) :
    (State.resetWith p).descriptor i = Descriptor.reset :=
  List.getElem?_getD_replicate_default_eq _ p.maxFields i

@[simp] theorem resetWith_defaultValue (i : Nat) : (State.resetWith p).defaultValue i = 0 :=
  List.getElem?_getD_replicate_default_eq _ p.maxFields i

@[simp] theorem resetWith_fieldValue (i : Nat) : (State.resetWith p).fieldValue i = 0 :=
  List.getElem?_getD_replicate_default_eq _ p.maxFields i

@[simp] theorem resetWith_status : (State.resetWith p).status = Status.clear := rfl

end ResetWith

@[simp] theorem statusNumber_clear : statusNumber Status.clear = 0 := rfl

/-- Settles O9: the indexed storage by the lemmas above, the single registers by the definition of
`State.resetWith`. -/
theorem resetStateIsTheResetTable : Obligations.ResetStateIsTheResetTable := by
  have statusZero (p : Params) : statusNumber (State.resetWith p).status = 0 := by
    rw [resetWith_status, statusNumber_clear]
  exact ⟨rfl, rfl, rfl, fun p => ⟨resetWith_readBS p, rfl, rfl, rfl, rfl, rfl, rfl, rfl, rfl, rfl, rfl,
    rfl, resetWith_descriptor p, resetWith_defaultValue p, resetWith_fieldValue p, rfl, rfl,
    statusZero p, rfl, rfl⟩⟩

end Sys2Proof.Machine
end

section
/-!
PROOFS. The i32 encoding (41_numeric_codec.md R124).
-/

namespace Sys2Proof.Machine

open Sys2Proof.Spec

section EncI32

variable {fe : Option Nat} {v : Int} {off : Nat}

/-- On the encodable values neither range check of R124 raises. -/
theorem encI32_of_encodable (h : I32Encodable v off) : encI32 fe v off = .ok (i32Bits v off) := by
  rcases h with ⟨nonneg, fits⟩ | ⟨neg, nonneg, fits⟩
  · simp only [encI32, i32Bits, if_pos nonneg, if_neg (Int.not_lt.mpr fits)]
  · have inRange : ¬(v + off < 0 ∨ v + off > 2 ^ 31 - 1) := by omega
    simp only [encI32, i32Bits, if_neg (Int.not_le.mpr neg), if_neg inRange]

theorem i32Encodable_of_encI32_ok {b : BitString} (h : encI32 fe v off = .ok b) :
    I32Encodable v off := by
  rcases encI32_ok h with ⟨nonneg, fits, -⟩ | ⟨neg, nonneg, fits, -⟩
  · exact .inl ⟨nonneg, by omega⟩
  · exact .inr ⟨neg, nonneg, by omega⟩

theorem encI32_of_not_encodable (h : ¬I32Encodable v off) :
    encI32 fe v off = .error (.rangeError fe 31) := by
  cases result : encI32 fe v off with
  | ok b => exact absurd (i32Encodable_of_encI32_ok result) h
  | error e => rw [encI32_error result]

/-- Adding the default offset brings every negative 32-bit value into the 31 magnitude bits. -/
theorem i32Encodable_defaultOffset : I32Encodable v (2 ^ 31) ↔ -2 ^ 31 ≤ v ∧ v ≤ 2 ^ 31 - 1 := by
  unfold I32Encodable
  omega

end EncI32

/-- Settles O21: what is encoded and what is refused by the lemmas above, the default range by
arithmetic. -/
theorem i32EncodingIsFlagAndMagnitude : Obligations.I32EncodingIsFlagAndMagnitude :=
  ⟨fun _ _ _ => ⟨encI32_of_encodable, encI32_of_not_encodable⟩, fun _ => i32Encodable_defaultOffset⟩

end Sys2Proof.Machine
end

section
/-!
PROOFS. The frame decoder's header and skip (46_frame_decoder.md R220, R224), with the facts about information
words, faults and digits they share with other commands.
-/

namespace Sys2Proof.Machine

open Sys2Proof.Spec

/-! ### Digits -/

/-- The slice of a slice that does not reach past it. -/
theorem slice_slice {b : BitString} {p n q m : Nat} (h : q + m ≤ n) :
    slice (slice b p n) q m = slice b (p + q) m := by
  have fits : m ≤ n - q := Nat.le_sub_of_add_le' h
  simp only [slice, List.drop_take, List.take_take, List.drop_drop, Nat.min_eq_left fits]

theorem uval_lt (b : BitString) : uval b < 2 ^ b.length := by
  induction b with
  | nil => exact Nat.one_pos
  | cons d ds ih =>
    have digit : d.toNat * 2 ^ ds.length ≤ 2 ^ ds.length :=
      mul_le_of_le_one_left (Nat.zero_le _) (Bool.toNat_le d)
    simp only [uval, List.length_cons, pow_succ]
    omega

/-- The value of a slice fits as many bits as the slice was asked for. -/
theorem toNat_ofNat_uval_slice (b : BitString) (p n : Nat) :
    (BitVec.ofNat n (uval (slice b p n))).toNat = uval (slice b p n) := by
  have short : (slice b p n).length ≤ n := slice_length b p n ▸ Nat.min_le_left _ _
  rw [BitVec.toNat_ofNat, Nat.mod_eq_of_lt]
  exact (uval_lt _).trans_le (Nat.pow_le_pow_right two_pos short)

/-! ### Information words -/

/-- Two 32-bit halves as `hi << 32 | lo`. -/
theorem append_eq_infoPair (hi lo : BitVec 32) : hi ++ lo = infoPair hi.toNat lo.toNat := by
  apply BitVec.eq_of_toNat_eq
  have hhi := hi.isLt
  have hlo := lo.isLt
  rw [BitVec.toNat_append, infoPair, BitVec.toNat_ofNat, ← Nat.shiftLeft_add_eq_or_of_lt hlo,
    Nat.shiftLeft_eq]
  omega

/-- A lower half that fits 32 bits is not cut; the upper half is cut alike in both. -/
theorem pairWord_eq_infoPair {hi lo : Nat} (h : lo < 2 ^ 32) : pairWord hi lo = infoPair hi lo := by
  rw [pairWord, append_eq_infoPair]
  apply BitVec.eq_of_toNat_eq
  simp only [infoPair, BitVec.toNat_ofNat]
  omega

/-- ReadOverrun's request is reported as it is when it fits 32 bits. -/
theorem readOverrun_info {left asked : Nat} (h : asked < 2 ^ 32) :
    (Raise.readOverrun left asked).info = infoPair left asked := by
  rw [Raise.info, Nat.min_eq_left (by omega), pairWord_eq_infoPair h]

/-! ### Answers and faults -/

theorem respond_eq_answered (s : State) (text : List Byte) : s.respond text = answered s text := rfl

theorem takeFault_eq_faulted (s : State) (cw : CommandWord) (r : Raise) :
    s.takeFault cw r = faulted s cw r.cause r.info := by
  unfold State.takeFault faulted Status.recordFault
  cases s.status.fcause <;> rfl

/-! ### The two commands -/

section Decoder

variable {s : State}

/-- FD_HDR's tag and length are the first and the second 32 of the 64 digits it reads. -/
theorem execFdHdr_of_le (h : 64 ≤ s.rSrc.length - s.rPos) :
    execFdHdr s = .next (answered
      { s with
        rPos := s.rPos + 64
        fdTag := BitVec.ofNat 32 (uval (slice s.rSrc s.rPos 32))
        fdLen := BitVec.ofNat 32 (uval (slice s.rSrc (s.rPos + 32) 32))
        fdPstart := BitVec.ofNat 32 (s.rPos + 64)
        fdHvalid := true
        res := BitVec.ofNat 32 (uval (slice s.rSrc (s.rPos + 32) 32)) ++
          BitVec.ofNat 32 (uval (slice s.rSrc s.rPos 32)) } []) := by
  have tag : slice (slice s.rSrc s.rPos 64) 0 32 = slice s.rSrc s.rPos 32 := slice_slice (by decide)
  have len : slice (slice s.rSrc s.rPos 64) 32 32 = slice s.rSrc (s.rPos + 32) 32 :=
    slice_slice (by decide)
  rw [execFdHdr, readBits_ok.2 ⟨h, rfl, rfl⟩]
  simp only [finish_ok, respond_eq_answered, State.latchHeader, State.setRes, tag, len]

theorem execFdHdr_of_lt (h : s.rSrc.length - s.rPos < 64) :
    execFdHdr s = .next (faulted s (commandWord .fdHdr) .readOverrun
      (infoPair (s.rSrc.length - s.rPos) 64)) := by
  rw [execFdHdr, readBits_error.2 ⟨h, rfl⟩]
  simp only [finish_error, takeFault_eq_faulted, Raise.cause, readOverrun_info (asked := 64) (by decide)]

theorem execFdSkip_of_le (valid : s.fdHvalid = true) (h : s.fdLen.toNat ≤ s.rSrc.length - s.rPos) :
    execFdSkip s =
      .next (answered { s with rPos := s.rPos + s.fdLen.toNat, fdHvalid := false } []) := by
  rw [execFdSkip, if_neg (by simp [valid]), readBits_ok.2 ⟨h, rfl, rfl⟩]
  rfl

theorem execFdSkip_of_not_valid (h : s.fdHvalid = false) :
    execFdSkip s = .next (faulted s (commandWord .fdSkip) .sequenceError 0) := by
  rw [execFdSkip, if_pos h, finish_error, takeFault_eq_faulted]
  rfl

theorem execFdSkip_of_lt (valid : s.fdHvalid = true) (h : s.rSrc.length - s.rPos < s.fdLen.toNat) :
    execFdSkip s = .next (faulted s (commandWord .fdSkip) .readOverrun
      (infoPair (s.rSrc.length - s.rPos) s.fdLen.toNat)) := by
  rw [execFdSkip, if_neg (by simp [valid]), readBits_error.2 ⟨h, rfl⟩]
  simp only [finish_error, takeFault_eq_faulted, Raise.cause, readOverrun_info s.fdLen.isLt]

end Decoder

/-- Settles O50: the latched numbers are those of the two header slices, since 32 digits fit 32 bits. -/
theorem fdHdrLatchesTheHeader : Obligations.FdHdrLatchesTheHeader := by
  refine ⟨rfl, fun s => ⟨fun fits => ?_, execFdHdr_of_lt⟩⟩
  refine ⟨_, _, toNat_ofNat_uval_slice s.rSrc s.rPos 32,
    toNat_ofNat_uval_slice s.rSrc (s.rPos + 32) 32, ?_⟩
  rw [← append_eq_infoPair]
  exact execFdHdr_of_le (by omega)

/-- Settles O53: the three ends of FD_SKIP by the lemmas above, none of which reads LENPOL or the
schema. -/
theorem fdSkipPassesOverThePayload : Obligations.FdSkipPassesOverThePayload :=
  ⟨rfl, fun _ => ⟨execFdSkip_of_le, execFdSkip_of_not_valid, execFdSkip_of_lt⟩⟩

end Sys2Proof.Machine
end

section
/-!
PROOFS. RDREG, WRREG and CLRST (47_control.md): the packed words as numbers, the CSR map of 10_state.md R33, and
what each of the three commands does.
-/

namespace Sys2Proof.Machine

open Sys2Proof.Spec

/-! ### Packed words as numbers -/

/-- Two fields side by side: the upper one counts in units past the lower one's bits. -/
theorem toNat_append_eq_add {m n : Nat} (hi : BitVec m) (lo : BitVec n) :
    (hi ++ lo).toNat = hi.toNat * 2 ^ n + lo.toNat := by
  rw [BitVec.toNat_append, ← Nat.shiftLeft_add_eq_or_of_lt lo.isLt, Nat.shiftLeft_eq]

/-- The four fields of a command word do not overlap (30_encoding.md R71). -/
theorem assemble_eq_append (op : BitVec 8) (rd rs : BsReg) (imm : Imm) :
    assemble op rd rs imm = op ++ rd ++ rs ++ imm := by
  unfold assemble
  ext i hi
  simp only [BitVec.getElem_or, BitVec.getElem_shiftLeft, BitVec.getElem_setWidth]
  grind

theorem toNat_assemble (op : BitVec 8) (rd rs : BsReg) (imm : Imm) :
    (assemble op rd rs imm).toNat =
      op.toNat * 2 ^ 24 + rd.toNat * 2 ^ 20 + rs.toNat * 2 ^ 16 + imm.toNat := by
  rw [assemble_eq_append]
  simp only [toNat_append_eq_add]
  omega

@[simp] theorem toNat_causeCode (c : Option Cause) : (causeCode c).toNat = causeNumber c := by
  cases c with
  | none => rfl
  | some c => cases c <;> rfl

@[simp] theorem toNat_lenPolicyCode (p : LenPolicy) : p.code.toNat = policyNumber p := by
  cases p <;> rfl

@[simp] theorem toNat_kindCode (k : Kind) : k.code.toNat = kindNumber k := by cases k <;> rfl

@[simp] theorem toNat_statusWord (st : Status) : st.word.toNat = statusNumber st := by
  simp only [Status.word, statusNumber, toNat_append_eq_add, toNat_causeCode, BitVec.toNat_ofBool,
    BitVec.toNat_ofNat]
  omega

@[simp] theorem toNat_descriptorWord (d : Descriptor) : d.word.toNat = descriptorNumber d := by
  simp only [Descriptor.word, descriptorNumber, toNat_append_eq_add, toNat_kindCode,
    BitVec.toNat_ofNat]
  omega

theorem lowWord_eq_low32 (d : DataWord) : lowWord d = low32 d := rfl

/-- The two low bits of a data word are its number modulo 4. -/
theorem extractLsb'_two_eq {d : DataWord} {k : Nat} (h : d.toNat % 4 = k) :
    d.extractLsb' 0 2 = BitVec.ofNat 2 k :=
  BitVec.eq_of_toNat_eq (by simp [h.symm])

/-! ### The CSR map -/

section CsrMap

variable {s : State} {a : Imm} {c : Csr}

/-- The table of R33 read at an address is the register at that address read as a number. The field
registers come after the fixed ones in both. -/
theorem csrNumber_eq (s : State) (a : Imm) :
    csrNumber s a.toNat = (csrOperand a s).toOption.map fun c => (csrRead s c).toNat := by
  unfold csrOperand
  split
  case h_19 =>
    unfold csrNumber
    iterate 18 rw [if_neg ‹_›]
    split
    · simp [Except.toOption, csrRead]
    · split <;> rfl
  all_goals
    simp [csrNumber, csrRead, Except.toOption, Config.nbs, BitVec.toNat_setWidth_of_le,
      -BitVec.toNat_setWidth, *]

theorem csrNumber_of_csrOperand_ok (h : csrOperand a s = .ok c) :
    csrNumber s a.toNat = some (csrRead s c).toNat := by
  rw [csrNumber_eq, h]
  rfl

theorem csrNumber_of_csrOperand_error {e : Raise} (h : csrOperand a s = .error e) :
    csrNumber s a.toNat = none := by
  rw [csrNumber_eq, h]
  rfl

/-- Only 0x001, 0x002, 0x00B and 0x00C are addresses of writable registers. -/
theorem csrWrite_of_other_address {d : DataWord} (h : csrOperand a s = .ok c)
    (h1 : a.toNat ≠ 0x001) (h2 : a.toNat ≠ 0x002) (hB : a.toNat ≠ 0x00B) (hC : a.toNat ≠ 0x00C) :
    csrWrite c d s = .error .illegalOperand := by
  unfold csrOperand at h
  split at h
  case h_2 | h_3 | h_12 | h_13 => contradiction
  case h_19 =>
    split at h
    · cases h; rfl
    · split at h
      · cases h; rfl
      · cases h
  all_goals cases h; rfl

end CsrMap

/-! ### The commands -/

section Control

variable {s t : State} {a : Imm} {c : Csr} {d : DataWord}

theorem execRdreg_of_ok (h : csrOperand a s = .ok c) :
    execRdreg a s = .next (answered { s with res := csrRead s c } []) := by
  rw [execRdreg, h]
  rfl

theorem execRdreg_of_error (h : csrOperand a s = .error .illegalOperand) :
    execRdreg a s = .next (faulted s (commandWord (.rdreg a)) .illegalOperand 0) := by
  rw [execRdreg, h]
  simp only [finish_error, takeFault_eq_faulted, Raise.cause, Raise.info]

theorem execWrreg_of_ok (h : csrOperand a s = .ok c) (written : csrWrite c d s = .ok t) :
    execWrreg a d s = .next (answered t []) := by
  simp only [execWrreg, h, written, finish_ok, respond_eq_answered]

/-- WRREG refuses an unmapped address and a value its register refuses alike. -/
theorem execWrreg_of_error
    (refused : ∀ c, csrOperand a s = .ok c → csrWrite c d s = .error .illegalOperand) :
    execWrreg a d s = .next (faulted s (commandWord (.wrreg a d)) .illegalOperand 0) := by
  cases operand : csrOperand a s with
  | ok c =>
    simp only [execWrreg, operand, refused c operand, finish_error, takeFault_eq_faulted, Raise.cause,
      Raise.info]
  | error e =>
    obtain rfl := csrOperand_error operand
    simp only [execWrreg, operand, finish_error, takeFault_eq_faulted, Raise.cause, Raise.info]

theorem csrWrite_lenpol {p : LenPolicy} (h : d.toNat % 4 = policyNumber p) :
    csrWrite .lenpol d s = .ok { s with lenpol := p } := by
  rw [csrWrite, extractLsb'_two_eq h]
  cases p <;> rfl

theorem csrWrite_lenpol_of_three (h : d.toNat % 4 = 3) :
    csrWrite .lenpol d s = .error .illegalOperand := by
  rw [csrWrite, extractLsb'_two_eq h]
  rfl

theorem csrWrite_schNf_of_le (h : (low32 d).toNat ≤ s.params.maxFields) :
    csrWrite .schNf d s = .ok { s with schNf := (low32 d).toNat } :=
  if_neg (Nat.not_lt.mpr h)

theorem csrWrite_schNf_of_lt (h : s.params.maxFields < (low32 d).toNat) :
    csrWrite .schNf d s = .error .illegalOperand :=
  if_pos h

end Control

/-- Settles O30: the model's CSR map and the table of R33 agree at every address, mapped or not. -/
theorem rdregReadsTheCsrTable : Obligations.RdregReadsTheCsrTable := by
  refine fun s a => ⟨?_, ?_⟩
  · rw [commandWord, encode, toNat_assemble]
    rfl
  cases operand : csrOperand a s with
  | ok c =>
    rw [csrNumber_of_csrOperand_ok operand]
    refine ⟨fun v value => ?_, nofun⟩
    obtain rfl := Option.some.inj value
    rw [BitVec.ofNat_toNat, BitVec.setWidth_eq]
    exact execRdreg_of_ok operand
  | error e =>
    obtain rfl := csrOperand_error operand
    rw [csrNumber_of_csrOperand_error operand]
    exact ⟨nofun, fun _ => execRdreg_of_error operand⟩

/-- Settles O31: the four writable registers by their writes, every other address because what stands
there, if anything, is read-only. -/
theorem wrregWritesTheWritableCsrs : Obligations.WrregWritesTheWritableCsrs := by
  intro s d
  refine ⟨fun a => ?_, execWrreg_of_ok rfl rfl,
    fun permissive => execWrreg_of_ok rfl (csrWrite_lenpol permissive),
    fun equal => execWrreg_of_ok rfl (csrWrite_lenpol equal),
    fun framed => execWrreg_of_ok rfl (csrWrite_lenpol framed),
    fun three => execWrreg_of_error ?_, execWrreg_of_ok rfl rfl,
    fun fits => execWrreg_of_ok rfl (csrWrite_schNf_of_le fits),
    fun above => execWrreg_of_error ?_,
    fun a h1 h2 hB hC => execWrreg_of_error fun _ operand =>
      csrWrite_of_other_address operand h1 h2 hB hC⟩
  · rw [commandWord, encode, toNat_assemble]
    rfl
  · rintro _ ⟨⟩
    exact csrWrite_lenpol_of_three three
  · rintro _ ⟨⟩
    exact csrWrite_schNf_of_lt above

/-- Settles O32: what CLRST answers from is the acknowledged state, whose STATUS is the cleared one. -/
theorem clrstClearsTheFaultRecord : Obligations.ClrstClearsTheFaultRecord :=
  ⟨rfl, fun s => ⟨s.acknowledge.respond [],
    finish_ok (commandWord .clrst) s s.acknowledge, statusNumber_clear, rfl⟩⟩

end Sys2Proof.Machine
end

section
/-!
PROOFS. Decoding and encoding (30_encoding.md): the five ways a row's mask fixes the reserved fields of a word,
and the decoder against the opcode table in both directions.
-/

namespace Sys2Proof

open Sys2Proof.Machine Sys2Proof.Spec Sys2Proof.Laws

/-! ### The word a row accepts, assembled from the fields the row uses -/

section Reserved

variable {cw : CommandWord} {op : BitVec 8}

theorem assemble_of_mask_imm (h : cw &&& 0xFFFF0000#32 = assemble op 0 0 0) :
    assemble op 0 0 (immField cw) = cw := by
  rw [← assemble_fields cw, and_mask_imm, assemble_inj] at h
  obtain ⟨hop, hrd, hrs, -⟩ := h
  conv_rhs => rw [← assemble_fields cw, hop, hrd, hrs]

theorem assemble_of_mask_none (h : cw &&& 0xFFFFFFFF#32 = assemble op 0 0 0) :
    assemble op 0 0 0 = cw := by
  rw [← h, ← assemble_fields cw, and_mask_none]

theorem assemble_of_mask_rd_imm (h : cw &&& 0xFF0F0000#32 = assemble op 0 0 0) :
    assemble op (rdField cw) 0 (immField cw) = cw := by
  rw [← assemble_fields cw, and_mask_rd_imm, assemble_inj] at h
  obtain ⟨hop, -, hrs, -⟩ := h
  conv_rhs => rw [← assemble_fields cw, hop, hrs]

theorem assemble_of_mask_rs (h : cw &&& 0xFFF0FFFF#32 = assemble op 0 0 0) :
    assemble op 0 (rsField cw) 0 = cw := by
  rw [← assemble_fields cw, and_mask_rs, assemble_inj] at h
  obtain ⟨hop, hrd, -, himm⟩ := h
  conv_rhs => rw [← assemble_fields cw, hop, hrd, himm]

theorem assemble_of_mask_rd (h : cw &&& 0xFF0FFFFF#32 = assemble op 0 0 0) :
    assemble op (rdField cw) 0 0 = cw := by
  rw [← assemble_fields cw, and_mask_rd, assemble_inj] at h
  obtain ⟨hop, -, hrs, himm⟩ := h
  conv_rhs => rw [← assemble_fields cw, hop, hrs, himm]

end Reserved

/-! ### Decoding what was encoded -/

theorem textFits_iff (text : List Byte) : textFits text = true ↔ text.length ≤ 65535 :=
  decide_eq_true_iff

/-- A text that fits is announced by IMM at its length. -/
theorem toNat_ofNat_length {text : List Byte} (h : textFits text = true) :
    (BitVec.ofNat 16 text.length).toNat = text.length := by
  rw [BitVec.toNat_ofNat, Nat.mod_eq_of_lt (Nat.lt_succ_of_le ((textFits_iff text).1 h))]

/-- The two text commands announce their text, every other command announces none and carries none. -/
theorem textLen_encode {i : Instr} (h : i.wf = true) :
    (encode i).text.length = textLen (encode i).cw := by
  cases i
  case bsText rd text => rw [encode, textLen_assemble, if_pos (.inl rfl), toNat_ofNat_length h]
  case isBin text => rw [encode, textLen_assemble, if_pos (.inr rfl), toNat_ofNat_length h]
  all_goals
    rw [encode, textLen_assemble, if_neg (by decide)]
    rfl

theorem selectRow_of_masked {cw m k : CommandWord} {i : Instr} (h : cw &&& k = m) :
    selectRow cw m k i = .ok i := if_pos h

/-- The word of a command selects the command's row. -/
theorem commandWord_selects (i : Instr) : RowSelected.Statement i := by
  cases i
  case rdreg | wrreg | isBin | wNum | rNum | schFd | schDef | fvWr | fvRd => exact and_mask_imm _ _ _ _
  case bsText | fromNum => exact and_mask_rd_imm _ _ _ _
  case bsStr | bsLen | asU16 | asU32 | asI32 | asU64 | asF32 | asNum | wBits | rLoad =>
    exact and_mask_rs _ _ _ _
  case fromU16 | fromU32 | fromI32 | fromU64 | fromF32 | wFlush | rBits | feEnc =>
    exact and_mask_rd _ _ _ _
  all_goals exact and_mask_none _ _ _ _

/-- The opcode of a command's word leads the decoder to the command's row, which the word selects. -/
theorem decodeWord_encode (i : Instr) :
    decodeWord (encode i).cw (encode i).d (encode i).text = .ok i := by
  have selected := commandWord_selects i
  cases i
  all_goals
    rw [encode, decodeWord, opField_assemble]
    refine selectRow_eq_ok.2 ⟨selected, ?_⟩
    simp only [rdField_assemble, rsField_assemble, immField_assemble]

/-- Settles O1: the text is of the announced length, and the word leads to the command's row. -/
theorem decodeInvertsEncode : Obligations.DecodeInvertsEncode := fun i wf => by
  rw [decode, if_pos (textLen_encode wf), decodeWord_encode]

/-! ### Encoding what was decoded -/

theorem decode_eq_ok {t : Transaction} {i : Instr} :
    decode t = .ok i ↔ t.text.length = textLen t.cw ∧ decodeWord t.cw t.d t.text = .ok i := by
  unfold decode
  split <;> simp_all

/-- The text of OP 0x10 and 0x12 has the length IMM says. -/
theorem textLen_of_opField {cw : CommandWord} (h : opField cw = 0x10 ∨ opField cw = 0x12) :
    textLen cw = (immField cw).toNat := if_pos h

/-- A row's mask pins the reserved fields of the word to zero, so the word is the one its command has. -/
theorem commandWord_of_decodeWord {cw : CommandWord} {d : DataWord} {text : List Byte} {i : Instr}
    (length : text.length = textLen cw) (h : decodeWord cw d text = .ok i) : commandWord i = cw := by
  unfold decodeWord at h
  split at h
  case h_45 => cases h
  all_goals obtain ⟨masked, rfl⟩ := selectRow_eq_ok.1 h
  case h_4 =>
    have announced := length.trans (textLen_of_opField (.inl (opField_of_masked masked rfl)))
    rw [commandWord, encode, announced, BitVec.ofNat_toNat, BitVec.setWidth_eq]
    exact assemble_of_mask_rd_imm masked
  case h_6 =>
    have announced := length.trans (textLen_of_opField (.inr (opField_of_masked masked rfl)))
    rw [commandWord, encode, announced, BitVec.ofNat_toNat, BitVec.setWidth_eq]
    exact assemble_of_mask_imm masked
  case h_13 => exact assemble_of_mask_rd_imm masked
  case h_1 | h_2 | h_25 | h_33 | h_37 | h_38 | h_39 | h_40 => exact assemble_of_mask_imm masked
  case h_5 | h_7 | h_14 | h_15 | h_16 | h_17 | h_18 | h_19 | h_26 | h_36 =>
    exact assemble_of_mask_rs masked
  case h_8 | h_9 | h_10 | h_11 | h_12 | h_27 | h_34 | h_41 => exact assemble_of_mask_rd masked
  all_goals exact assemble_of_mask_none masked

theorem textLen_le (cw : CommandWord) : textLen cw ≤ 65535 := by
  have imm := (immField cw).isLt
  unfold textLen
  split <;> omega

/-- The two text commands hold the text of their transaction, which IMM announces in 16 bits; no other
command's word announces one. -/
theorem text_of_decodeWord {cw : CommandWord} {d : DataWord} {text : List Byte} {i : Instr}
    (length : text.length = textLen cw) (h : decodeWord cw d text = .ok i) :
    i.wf = true ∧ (encode i).text = text := by
  have fits : textFits text = true := (textFits_iff text).2 (length.trans_le (textLen_le cw))
  unfold decodeWord at h
  split at h
  case h_45 => cases h
  all_goals obtain ⟨masked, rfl⟩ := selectRow_eq_ok.1 h
  case h_4 | h_6 => exact ⟨fits, rfl⟩
  all_goals
    rw [textLen, opField_of_masked masked rfl, if_neg (by decide)] at length
    exact ⟨rfl, (List.eq_nil_of_length_eq_zero length).symm⟩

/-- Settles O2: the row's mask gives back the word, and the announced length gives back the text. -/
theorem encodeInvertsDecode : Obligations.EncodeInvertsDecode := fun t i h => by
  obtain ⟨length, decoded⟩ := decode_eq_ok.1 h
  obtain ⟨wf, text⟩ := text_of_decodeWord length decoded
  exact ⟨wf, commandWord_of_decodeWord length decoded, text⟩

/-! ### The decoder against the opcode table -/

/-- A word that a row of the table selects decodes to a command of that row. -/
theorem decodeWord_of_selected {cw : CommandWord} (d : DataWord) (text : List Byte)
    {row : Mnemonic × CommandWord × CommandWord} (mem : row ∈ opcodeRows)
    (selected : cw &&& row.2.2 = row.2.1) :
    ∃ i, decodeWord cw d text = .ok i ∧ mnemonic i = row.1 := by
  fin_cases mem
  all_goals
    rw [decodeWord, opField_of_masked selected rfl]
    exact ⟨_, selectRow_of_masked selected, rfl⟩

/-- What decodes is selected by the row of its mnemonic. -/
theorem selected_of_decodeWord {cw : CommandWord} {d : DataWord} {text : List Byte} {i : Instr}
    {row : Mnemonic × CommandWord × CommandWord} (mem : row ∈ opcodeRows)
    (decoded : decodeWord cw d text = .ok i) (name : mnemonic i = row.1) :
    cw &&& row.2.2 = row.2.1 := by
  rw [row_unique mem name]
  exact decodeWord_row decoded

/-- Settles O3: both directions by the lemmas above. -/
theorem decoderFollowsOpcodeTable : Obligations.DecoderFollowsOpcodeTable := by
  intro t row mem length
  constructor
  · intro selected
    obtain ⟨i, decoded, name⟩ := decodeWord_of_selected t.d t.text mem selected
    exact ⟨i, decode_eq_ok.2 ⟨length, decoded⟩, name⟩
  · rintro ⟨i, decoded, name⟩
    exact selected_of_decodeWord mem (decode_eq_ok.1 decoded).2 name

theorem decode_error_of_unselected {t : Transaction}
    (unselected : ∀ row ∈ opcodeRows, t.cw &&& row.2.2 ≠ row.2.1) : ∃ e, decode t = .error e := by
  cases decoded : decode t with
  | error e => exact ⟨e, rfl⟩
  | ok i => exact absurd (decodeWord_row (decode_eq_ok.1 decoded).2) (unselected _ (row_mem i))

/-! ### The command word as a number -/

/-- The field of `n` bits from bit `p` on counts the word in units of `2 ^ p`. -/
theorem toNat_extractLsb'_eq_div {m : Nat} (x : BitVec m) (p n : Nat) :
    (x.extractLsb' p n).toNat = x.toNat / 2 ^ p % 2 ^ n := by
  rw [BitVec.extractLsb'_toNat, Nat.shiftRight_eq_div_pow]

/-- Settles O4: OP, the uppermost field, needs no remainder. -/
theorem commandWordFieldPositions : Obligations.CommandWordFieldPositions := by
  refine ⟨fun cw => ⟨?_, toNat_extractLsb'_eq_div cw 20 4, toNat_extractLsb'_eq_div cw 16 4, ?_⟩,
    toNat_assemble⟩
  · rw [opField, toNat_extractLsb'_eq_div]
    exact Nat.mod_eq_of_lt (by omega)
  · rw [immField, toNat_extractLsb'_eq_div, pow_zero, Nat.div_one]

/-- Settles O6: each word selects the row of its opcode, or none. -/
theorem writtenOutWordsDecode : Obligations.WrittenOutWordsDecode :=
  ⟨rfl, rfl, rfl, rfl, rfl, rfl, rfl, rfl, rfl, rfl, rfl⟩

end Sys2Proof
end

section
/-!
PROOFS. What a step does with the head of the host port (30_encoding.md R70, R77; 70_reset_and_hazards.md R300,
R302).
-/

namespace Sys2Proof.Machine

open Sys2Proof.Spec

/-! ### The fault that ends a command, in the words of the obligations -/

theorem finish_error_faulted (cw : CommandWord) (s : State) (e : Raise) :
    finish cw s (.error e) = .next (faulted s cw e.cause e.info) := by
  rw [finish_error, takeFault_eq_faulted]

theorem execIllegal_faulted (cw : CommandWord) (s : State) :
    execIllegal cw s = .next (faulted s cw .illegalCommand 0) :=
  finish_error_faulted cw s .illegalCommand

/-- Every command ends in a next state: those that cannot fault by their answer, the others by the common
end of a command. -/
theorem exec_total (i : Instr) (s : State) : ∃ t, exec i s = .next t := by
  cases i
  case clrst | bsStr | isBin | bsLen | fromU64 | fromF32 | wFlush | rLoad => exact ⟨_, rfl⟩
  all_goals exact finish_total _ s _

/-! ### A step, by what the port holds -/

section Step

variable {s : State} {t : Transaction} {rest : List HostEvent}

theorem step_of_wait (h : poll s.hostIn = .wait) : step s = .next s := by rw [step, h]

theorem step_of_reset (h : poll s.hostIn = .reset rest) : step s = .next (s.applyReset rest) := by
  rw [step, h]

theorem step_of_command {i : Instr} (h : poll s.hostIn = .run t rest) (decoded : decode t = .ok i) :
    step s = exec i (s.setHostIn rest) := by
  simp only [step, h, decoded]

theorem step_of_illegal {e : DecodeError} (h : poll s.hostIn = .run t rest)
    (decoded : decode t = .error e) : step s = execIllegal t.cw (s.setHostIn rest) := by
  simp only [step, h, decoded]

/-- Everything a step can do. -/
theorem step_cases (s : State) :
    step s = .next s ∨ (∃ rest, step s = .next (s.applyReset rest)) ∨
    (∃ i rest, step s = exec i (s.setHostIn rest)) ∨
    ∃ cw rest, step s = execIllegal cw (s.setHostIn rest) := by
  cases h : poll s.hostIn with
  | wait => exact .inl (step_of_wait h)
  | reset rest => exact .inr (.inl ⟨rest, step_of_reset h⟩)
  | run t rest =>
    cases decoded : decode t with
    | ok i => exact .inr (.inr (.inl ⟨i, rest, step_of_command h decoded⟩))
    | error e => exact .inr (.inr (.inr ⟨t.cw, rest, step_of_illegal h decoded⟩))

end Step

/-- Settles O11: each of the four things a step can do gives a next state. -/
theorem noStepStopsTheBlock : Obligations.NoStepStopsTheBlock := fun s => by
  rcases step_cases s with h | ⟨rest, h⟩ | ⟨i, rest, h⟩ | ⟨cw, rest, h⟩ <;> rw [h]
  · exact ⟨_, rfl⟩
  · exact ⟨_, rfl⟩
  · exact exec_total i _
  · exact ⟨_, execIllegal_faulted cw _⟩

/-- Settles O5: the announced text is taken with the word, which no row selects. -/
theorem illegalWordsRaiseIllegalCommand : Obligations.IllegalWordsRaiseIllegalCommand := by
  intro s t rest head arrived unselected
  obtain ⟨e, refused⟩ := decode_error_of_unselected
    (t := { t with text := t.text.take (textLen t.cw) }) unselected
  rw [step_of_illegal (head ▸ poll_transaction arrived) refused, execIllegal_faulted]
  rfl

/-- Settles O7: the port hands over the transaction with its text, and what decodes is well formed. -/
theorem stepRunsTheDecodedCommand : Obligations.StepRunsTheDecodedCommand := by
  intro s t rest i head arrived decoded
  exact ⟨(encodeInvertsDecode _ i decoded).1,
    step_of_command (head ▸ poll_transaction arrived) decoded⟩

/-- Settles O8: an empty port and a short text are the two ways to wait. -/
theorem waitsWhileTheHostIsSilent : Obligations.WaitsWhileTheHostIsSilent := by
  refine ⟨fun s empty => step_of_wait ?_, fun s t head short => step_of_wait ?_⟩
  · rw [empty, poll]
  · rw [head, poll_short short]

/-- Settles O10: reset is next on the port, or behind a transaction it abandons. -/
theorem resetSetsEverythingAndAnswersNothing : Obligations.ResetSetsEverythingAndAnswersNothing := by
  rintro s rest (head | ⟨t, head, short⟩)
  · exact step_of_reset (head ▸ rfl)
  · exact step_of_reset (head ▸ poll_short_reset short)

end Sys2Proof.Machine
end

section
/-!
PROOFS. What a completed command leaves unchanged, one lemma for each piece of storage (10_state.md).
-/

namespace Sys2Proof.Machine

open Sys2Proof.Spec

/-! ### The three effects that are given by a function of the model -/

/-- A CSR write changes configuration alone. -/
theorem csrWrite_frame {c : Csr} {d : DataWord} {s t : State} (h : csrWrite c d s = .ok t) :
    ∃ off policy tag nf, t = { s with
      i32Offset := off, lenpol := policy, schTag := tag, schNf := nf } ∧
      (s.schNf ≤ s.params.maxFields → nf ≤ s.params.maxFields) := by
  rcases csrWrite_ok h with ⟨-, rfl⟩ | ⟨-, p, -, rfl⟩ | ⟨-, rfl⟩ | ⟨-, fits, rfl⟩
  · exact ⟨_, _, _, _, rfl, id⟩
  · exact ⟨_, _, _, _, rfl, id⟩
  · exact ⟨_, _, _, _, rfl, id⟩
  · exact ⟨_, _, _, _, rfl, fun _ => fits⟩

/-- The length policy moves the cursor inside the source and raises flags, OVER under PERMISSIVE alone. -/
theorem lenPolicy_frame {c : Nat} {s t : State} (h : lenPolicy c s = .ok t) :
    ∃ n short long, t = { s with
      rPos := s.rPos + n
      status := { s.status with
        underrun := s.status.underrun || short, overrun := s.status.overrun || long } } ∧
      (s.rPos ≤ s.rSrc.length → s.rPos + n ≤ s.rSrc.length) ∧
      (long = true → s.lenpol = .permissive) := by
  rcases lenPolicy_ok h with ⟨permissive, rfl⟩ | ⟨-, -, rfl⟩ | ⟨-, -, left, rfl⟩
  · exact ⟨0, _, _, rfl, id, fun _ => permissive⟩
  · exact ⟨0, false, false, by simp, id, nofun⟩
  · refine ⟨s.fdLen.toNat - c, decide (c < s.fdLen.toNat), false, ?_, fun inside => by omega, nofun⟩
    rw [Bool.or_false]

/-- FD_BODY's effect as one record: the field values, the cursor, the flags, the count and the latch. -/
theorem fdBody_frame {v : BitVec 32} {c : Nat} {s t u : State}
    (walk : decodeFields v s.schNf 0 0 s = .ok (c, t)) (policy : lenPolicy c t = .ok u) :
    ∃ fv n draws short long, ((u.setConsumed c).clearLatch).setRes (BitVec.ofNat 64 c) = { s with
      fv := fv
      rPos := s.rPos + n
      nanDraws := draws
      status := { s.status with
        underrun := s.status.underrun || short, overrun := s.status.overrun || long }
      fdConsumed := BitVec.ofNat 32 c
      fdHvalid := false
      res := BitVec.ofNat 64 c } ∧
      fv.length = s.fv.length ∧ (s.rPos ≤ s.rSrc.length → s.rPos + n ≤ s.rSrc.length) ∧
      (long = true → s.lenpol = .permissive) := by
  obtain ⟨k, fv, draws, -, walked, fields, rfl⟩ := decodeFields_frame walk
  obtain ⟨n, short, long, rfl, moved, permissive⟩ := lenPolicy_frame policy
  exact ⟨fv, k + n, draws, short, long, by simp [State.setConsumed, State.clearLatch, State.setRes,
    Nat.add_assoc], fields, fun inside => Nat.add_assoc _ _ _ ▸ moved (walked inside), permissive⟩

/-! ### What no command changes, and what only the fault record's commands change -/

section Kept

variable {s u : State} {i : Instr}

/-- No command reads or writes the host's queue, the log or the parameters. -/
theorem effect_ports (h : Effect s i u) :
    u.hostOut = s.hostOut ∧ u.hostIn = s.hostIn ∧ u.params = s.params := by
  cases h
  case wrreg written =>
    obtain ⟨_, _, _, _, rfl, -⟩ := csrWrite_frame written
    exact ⟨rfl, rfl, rfl⟩
  case feEnc encoded _ _ =>
    obtain ⟨_, _, -, rfl⟩ := encodeFields_frame encoded
    exact ⟨rfl, rfl, rfl⟩
  case fdBody _ walk policy =>
    obtain ⟨_, _, _, _, _, same, -⟩ := fdBody_frame walk policy
    rw [same]
    exact ⟨rfl, rfl, rfl⟩
  all_goals exact ⟨rfl, rfl, rfl⟩

/-- Only CLRST writes the fault record when it completes. -/
theorem effect_record (h : Effect s i u) (other : i ≠ .clrst) :
    u.status.err = s.status.err ∧ u.status.fcause = s.status.fcause ∧
      u.status.lcause = s.status.lcause ∧ u.faultCmd = s.faultCmd ∧ u.faultInfo = s.faultInfo := by
  cases h
  case clrst => contradiction
  case wrreg written =>
    obtain ⟨_, _, _, _, rfl, -⟩ := csrWrite_frame written
    exact ⟨rfl, rfl, rfl, rfl, rfl⟩
  case feEnc encoded _ _ =>
    obtain ⟨_, _, -, rfl⟩ := encodeFields_frame encoded
    exact ⟨rfl, rfl, rfl, rfl, rfl⟩
  case fdBody _ walk policy =>
    obtain ⟨_, _, _, _, _, same, -⟩ := fdBody_frame walk policy
    rw [same]
    exact ⟨rfl, rfl, rfl, rfl, rfl⟩
  all_goals exact ⟨rfl, rfl, rfl, rfl, rfl⟩

/-! ### Who writes each piece of storage -/

/-- A BitString register is written by the commands that name it as RD. -/
theorem effect_readBS (h : Effect s i u) (r : BsReg) (changed : u.readBS r ≠ s.readBS r) :
    rdField (commandWord i) = r ∧ mnemonic i ∈ [.BS_TEXT, .FROM_U16, .FROM_U32, .FROM_I32, .FROM_U64,
      .FROM_F32, .FROM_NUM, .W_FLUSH, .R_BITS, .FE_ENC] := by
  have written {t : State} {rd : BsReg} {b : BitString} (same : t.readBS r = s.readBS r)
      (h : (t.writeBS rd b).readBS r ≠ s.readBS r) : rd = r := by
    rw [writeBS_readBS] at h
    by_contra other
    exact h ((if_neg other).trans same)
  cases h
  case bsText | rBits | wFlush =>
    exact ⟨(rdField_assemble _ _ _ _).trans (written rfl changed), by simp [mnemonic]⟩
  case fromValue k rd w d b hw h =>
    refine ⟨?_, by cases k <;> simp [mnemonic, fromCommand]⟩
    cases k <;> exact (rdField_assemble _ _ _ _).trans (written rfl changed)
  case feEnc encoded _ _ =>
    obtain ⟨_, _, -, rfl⟩ := encodeFields_frame encoded
    exact ⟨(rdField_assemble _ _ _ _).trans (written rfl changed), by simp [mnemonic]⟩
  case wrreg hw => obtain ⟨_, _, _, _, rfl, -⟩ := csrWrite_frame hw; exact absurd rfl changed
  case fdBody walk policy =>
    obtain ⟨_, _, _, _, _, same, -⟩ := fdBody_frame walk policy
    exact absurd (congrArg (State.readBS r) same) changed
  all_goals exact absurd rfl changed

/-- The writer's buffer is written by the writer. -/
theorem effect_wBuf (h : Effect s i u) (changed : u.wBuf ≠ s.wBuf) :
    mnemonic i ∈ [.W_U16, .W_U32, .W_I32, .W_U64, .W_F32, .W_NUM, .W_BITS, .W_FLUSH] := by
  cases h
  case writeValue k w d b hw h hc => cases k <;> simp [mnemonic, writeCommand]
  case wBits | wFlush => simp [mnemonic]
  case wrreg hw => obtain ⟨_, _, _, _, rfl, -⟩ := csrWrite_frame hw; exact absurd rfl changed
  case feEnc encoded _ _ => obtain ⟨_, _, -, rfl⟩ := encodeFields_frame encoded; exact absurd rfl changed
  case fdBody walk policy =>
    obtain ⟨_, _, _, _, _, same, -⟩ := fdBody_frame walk policy
    exact absurd (congrArg State.wBuf same) changed
  all_goals exact absurd rfl changed

/-- The source is written by R_LOAD, the cursor by the reader and the frame decoder. -/
theorem effect_reader (h : Effect s i u) : (u.rSrc ≠ s.rSrc → mnemonic i = .R_LOAD) ∧
    (u.rPos ≠ s.rPos → mnemonic i ∈ [.R_U16, .R_U32, .R_I32, .R_U64, .R_F32, .R_NUM, .R_BITS, .R_SKIP,
      .R_LOAD, .FD_HDR, .FD_BODY, .FD_SKIP]) := by
  cases h
  case wrreg hw => obtain ⟨_, _, _, _, rfl, -⟩ := csrWrite_frame hw; simp
  case feEnc encoded _ _ => obtain ⟨_, _, -, rfl⟩ := encodeFields_frame encoded; simp
  case fdBody walk policy =>
    obtain ⟨_, _, _, _, _, same, -⟩ := fdBody_frame walk policy
    rw [same]
    simp [mnemonic]
  case readValue k w v hw h hv => cases k <;> simp [mnemonic, readCommand]
  case rBits | rSkip | rLoad | fdHdr | fdSkip => simp [mnemonic]
  all_goals simp

/-- The header registers are written by FD_HDR, the count by FD_BODY. -/
theorem effect_header (h : Effect s i u) :
    (u.fdTag ≠ s.fdTag ∨ u.fdLen ≠ s.fdLen ∨ u.fdPstart ≠ s.fdPstart → mnemonic i = .FD_HDR) ∧
    (u.fdConsumed ≠ s.fdConsumed → mnemonic i = .FD_BODY) := by
  cases h
  case wrreg hw => obtain ⟨_, _, _, _, rfl, -⟩ := csrWrite_frame hw; simp
  case feEnc encoded _ _ => obtain ⟨_, _, -, rfl⟩ := encodeFields_frame encoded; simp
  case fdBody walk policy =>
    obtain ⟨_, _, _, _, _, same, -⟩ := fdBody_frame walk policy
    rw [same]
    simp [mnemonic]
  case fdHdr => simp [mnemonic]
  all_goals simp

/-- Configuration, descriptors, defaults and field values are written by the commands made for them. -/
theorem effect_schema (h : Effect s i u) :
    (u.schTag ≠ s.schTag ∨ u.schNf ≠ s.schNf ∨ u.i32Offset ≠ s.i32Offset ∨ u.lenpol ≠ s.lenpol →
      mnemonic i = .WRREG) ∧
    (u.schFd ≠ s.schFd → mnemonic i = .SCH_FD) ∧ (u.schDef ≠ s.schDef → mnemonic i = .SCH_DEF) ∧
    (u.fv ≠ s.fv → mnemonic i ∈ [.FV_WR, .FD_BODY]) := by
  cases h
  case wrreg hw => obtain ⟨_, _, _, _, rfl, -⟩ := csrWrite_frame hw; simp [mnemonic]
  case feEnc encoded _ _ => obtain ⟨_, _, -, rfl⟩ := encodeFields_frame encoded; simp
  case fdBody walk policy =>
    obtain ⟨_, _, _, _, _, same, -⟩ := fdBody_frame walk policy
    rw [same]
    simp [mnemonic]
  case schFd | schDef | fvWr => simp [mnemonic]
  all_goals simp

/-- RES is written by the commands that give a result. -/
theorem effect_res (h : Effect s i u) (changed : u.res ≠ s.res) :
    mnemonic i ∈ [.RDREG, .IS_BIN, .BS_LEN, .AS_U16, .AS_U32, .AS_I32, .AS_U64, .AS_F32, .AS_NUM,
      .W_FLUSH, .R_U16, .R_U32, .R_I32, .R_U64, .R_F32, .R_NUM, .FV_RD, .FE_ENC, .FD_HDR, .FD_BODY] := by
  cases h
  case asValue k rs v hl hv => cases k <;> simp [mnemonic, asCommand]
  case readValue k w v hw h hv => cases k <;> simp [mnemonic, readCommand]
  case rdreg | isBin | bsLen | wFlush | fvRd | feEnc | fdHdr | fdBody => simp [mnemonic]
  case wrreg hw => obtain ⟨_, _, _, _, rfl, -⟩ := csrWrite_frame hw; exact absurd rfl changed
  all_goals exact absurd rfl changed

/-- FD_HDR sets the latch, the commands of 10_state.md R29 clear it, the others keep it. -/
theorem effect_latch (h : Effect s i u) : (mnemonic i = .FD_HDR → u.fdHvalid = true) ∧
    (mnemonic i ∈ latchClearing → u.fdHvalid = false) ∧
    (mnemonic i ≠ .FD_HDR → mnemonic i ∉ latchClearing → u.fdHvalid = s.fdHvalid) := by
  cases h
  case wrreg hw => obtain ⟨_, _, _, _, rfl, -⟩ := csrWrite_frame hw; simp [mnemonic, latchClearing]
  case feEnc encoded _ _ =>
    obtain ⟨_, _, -, rfl⟩ := encodeFields_frame encoded
    simp [mnemonic, latchClearing]
  case fromValue k rd w d b hw h => cases k <;> simp [mnemonic, fromCommand, latchClearing]
  case asValue k rs v hl hv => cases k <;> simp [mnemonic, asCommand, latchClearing]
  case writeValue k w d b hw h hc => cases k <;> simp [mnemonic, writeCommand, latchClearing]
  case readValue k w v hw h hv => cases k <;> simp [mnemonic, readCommand, latchClearing]
  all_goals simp [mnemonic, latchClearing]

/-- UNDER and OVER are kept when set, and set by FD_BODY alone, OVER under PERMISSIVE. -/
theorem effect_flags (h : Effect s i u) :
    (mnemonic i ≠ .CLRST → (s.status.underrun = true → u.status.underrun = true) ∧
      (s.status.overrun = true → u.status.overrun = true)) ∧
    (u.status.underrun = true → s.status.underrun = false → mnemonic i = .FD_BODY) ∧
    (u.status.overrun = true → s.status.overrun = false →
      mnemonic i = .FD_BODY ∧ s.lenpol = .permissive) := by
  cases h
  case wrreg hw => obtain ⟨_, _, _, _, rfl, -⟩ := csrWrite_frame hw; simp_all
  case feEnc encoded _ _ => obtain ⟨_, _, -, rfl⟩ := encodeFields_frame encoded; simp_all
  case clrst => simp [mnemonic, Status.clear]
  case fdBody walk policy =>
    obtain ⟨_, _, _, short, long, same, -, -, permissive⟩ := fdBody_frame walk policy
    rw [same]
    refine ⟨fun _ => ⟨fun set => ?_, fun set => ?_⟩, fun _ _ => rfl, fun set clear => ⟨rfl, ?_⟩⟩
    · rw [set, Bool.true_or]
    · rw [set, Bool.true_or]
    · rw [clear, Bool.false_or] at set
      exact permissive set
  all_goals simp_all

end Kept

end Sys2Proof.Machine
end

section
/-!
PROOFS. The rules over all commands: what a fault and a completion leave unchanged (60_exceptions.md R271,
R272), who writes which piece of storage, and who raises which cause (R260).
-/

namespace Sys2Proof.Machine

open Sys2Proof.Spec

section Exec

variable {i : Instr} {s t : State}

/-- Everything a command can do, in the words of the obligations. -/
theorem exec_answered_or_faulted (h : exec i s = .next t) :
    (∃ u text, Effect s i u ∧ t = answered u text) ∨
      ∃ c info, t = faulted s (commandWord i) c info := by
  rcases exec_cases h with ⟨u, text, effect, rfl⟩ | ⟨e, rfl⟩
  · exact .inl ⟨u, text, effect, rfl⟩
  · exact .inr ⟨e.cause, e.info, takeFault_eq_faulted s _ e⟩

/-- A faulted command's response is no response of a completed one. -/
theorem faulted_hostOut_ne {cw : CommandWord} {c : Cause} {info res : DataWord} {text : List Byte} :
    (faulted s cw c info).hostOut ≠ s.hostOut ++ [⟨false, none, res, text⟩] := by
  simp [faulted]

end Exec

/-- Settles O12: a completed command adds its answer to the log it left as it was. -/
theorem faultsChangeOnlyTheFaultRecord : Obligations.FaultsChangeOnlyTheFaultRecord := by
  refine ⟨fun i s => ?_, execIllegal_faulted⟩
  obtain ⟨t, ht⟩ := exec_total i s
  refine ⟨t, ht, (exec_answered_or_faulted ht).imp_left ?_⟩
  rintro ⟨u, text, effect, rfl⟩
  exact ⟨text, by rw [answered, (effect_ports effect).1]⟩

/-- Settles O13: a response with FAULT = 0 is a completed command's, which keeps the record. -/
theorem completedCommandsKeepTheFaultRecord : Obligations.CompletedCommandsKeepTheFaultRecord := by
  intro i s t text h other response
  rcases exec_answered_or_faulted h with ⟨u, text', effect, rfl⟩ | ⟨c, info, rfl⟩
  · have record := effect_record effect other
    exact record
  · exact absurd response faulted_hostOut_ne

/-- Settles O57: a fault keeps the latch, a completed command does what its group does. -/
theorem latchLifeFollowsTheCommands : Obligations.LatchLifeFollowsTheCommands := by
  intro i s t h
  rcases exec_answered_or_faulted h with ⟨u, text, effect, rfl⟩ | ⟨c, info, rfl⟩
  · have latch := effect_latch effect
    exact .inr latch
  · exact .inl ⟨⟨c, info, rfl⟩, rfl⟩

/-- Settles O58: a fault keeps RES. -/
theorem onlyResultCommandsWriteRes : Obligations.OnlyResultCommandsWriteRes := by
  intro i s t h changed
  rcases exec_answered_or_faulted h with ⟨u, text, effect, rfl⟩ | ⟨c, info, rfl⟩
  · exact effect_res effect changed
  · exact absurd rfl changed

/-- Settles O59: a fault keeps all storage, a completed command writes its own. -/
theorem storageIsWrittenOnlyByItsCommands : Obligations.StorageIsWrittenOnlyByItsCommands := by
  intro i s t h
  rcases exec_answered_or_faulted h with ⟨u, text, effect, rfl⟩ | ⟨c, info, rfl⟩
  · obtain ⟨-, hostIn, params⟩ := effect_ports effect
    have registers := effect_readBS effect
    have writer := effect_wBuf effect
    obtain ⟨source, cursor⟩ := effect_reader effect
    obtain ⟨header, consumed⟩ := effect_header effect
    obtain ⟨config, descriptors, defaults, values⟩ := effect_schema effect
    exact ⟨registers, writer, source, cursor, header, consumed, config, descriptors, defaults, values,
      hostIn, params⟩
  · simp [faulted, State.readBS]

/-- Settles O60: a fault sets ERR, keeps UNDER and OVER, and keeps a first cause that is there. -/
theorem stickyFlagsAreClearedOnlyByClrst : Obligations.StickyFlagsAreClearedOnlyByClrst := by
  intro i s t h
  rcases exec_answered_or_faulted h with ⟨u, text, effect, rfl⟩ | ⟨c, info, rfl⟩
  · obtain ⟨sticky, underrun, overrun⟩ := effect_flags effect
    refine ⟨fun other => ?_, underrun, overrun⟩
    have notClrst : i ≠ .clrst := fun e => other (e ▸ rfl)
    obtain ⟨err, fcause, -⟩ := effect_record effect notClrst
    exact ⟨fun set => err.trans set, (sticky other).1, (sticky other).2, fun _ => fcause⟩
  · refine ⟨fun _ => ⟨fun _ => rfl, id, id, fun held => if_neg held⟩, fun set clear => ?_,
      fun set clear => ?_⟩
    · exact absurd (set.symm.trans clear) (by decide)
    · exact absurd (set.symm.trans clear) (by decide)

end Sys2Proof.Machine
end

section
/-!
PROOFS. Which commands raise which cause (60_exceptions.md R260).
-/

namespace Sys2Proof.Machine

open Sys2Proof.Spec

/-- The commands 60_exceptions.md R260 lists for a cause. IllegalCommand is the decoder's. -/
def raisersOf : Cause → List Mnemonic
  | .invalidCharacter => [.BS_TEXT]
  | .lengthMismatch => [.AS_U16, .AS_U32, .AS_I32, .AS_U64, .AS_F32, .AS_NUM]
  | .readOverrun =>
    [.R_U16, .R_U32, .R_I32, .R_U64, .R_F32, .R_NUM, .R_BITS, .R_SKIP, .FD_HDR, .FD_BODY, .FD_SKIP]
  | .frameConsistency => [.FD_BODY]
  | .rangeError =>
    [.FROM_U16, .FROM_U32, .FROM_I32, .FROM_NUM, .W_U16, .W_U32, .W_I32, .W_NUM, .FE_ENC]
  | .bufferOverflow => [.BS_TEXT, .W_U16, .W_U32, .W_I32, .W_U64, .W_F32, .W_NUM, .W_BITS, .FE_ENC]
  | .illegalCommand => []
  | .illegalOperand => [.RDREG, .WRREG, .FROM_NUM, .W_NUM, .R_NUM, .SCH_FD, .SCH_DEF, .FV_WR, .FV_RD]
  | .sequenceError => [.FD_BODY, .FD_SKIP]

section Raised

variable {cw cw' : CommandWord} {s : State} {r : Except Raise State} {c : Cause} {info : DataWord}

/-- A command that ends in a fault's state has raised the fault: the last response tells. -/
theorem error_of_finish_faulted (h : finish cw s r = .next (faulted s cw' c info)) :
    ∃ e, r = .error e ∧ e.cause = c := by
  rcases finish_next.1 h with ⟨u, rfl, same⟩ | ⟨e, rfl, same⟩
  · have last := congrArg (fun t => t.hostOut.getLast?) same
    simp [faulted, State.respond] at last
  · have cause := congrArg (fun t => t.status.lcause) same
    exact ⟨e, rfl, (Option.some.inj cause).symm⟩

theorem answered_ne_faulted {u : State} {text : List Byte} : answered u text ≠ faulted s cw c info := by
  intro same
  have last := congrArg (fun t => t.hostOut.getLast?) same
  simp [faulted, answered] at last

end Raised

section Listed

variable {s : State} {e : Raise} {k : Kind} {w : Nat}

theorem fromView_raises {rd : BsReg} {d : DataWord} (h : fromView k w rd d s = .error e) :
    e.cause = .rangeError ∧ k ≠ .u64 ∧ k ≠ .f32 := by
  obtain ⟨⟨n, rfl⟩, ranged⟩ := encK_error (fromView_error.1 h)
  exact ⟨rfl, ranged⟩

theorem asView_raises {rs : BsReg} (h : asView k rs s = .error e) : e.cause = .lengthMismatch := by
  rw [(checkLen_error.1 (asView_error.1 h)).2, Raise.cause]

theorem writeView_raises {d : DataWord} (h : writeView k w d s = .error e) :
    e.cause = .bufferOverflow ∨ e.cause = .rangeError ∧ k ≠ .u64 ∧ k ≠ .f32 := by
  rcases writeView_error.1 h with unfit | ⟨b, -, -, rfl⟩
  · obtain ⟨⟨n, rfl⟩, ranged⟩ := encK_error unfit
    exact .inr ⟨rfl, ranged⟩
  · exact .inl rfl

theorem readBits_raises {n : Nat} (h : s.readBits n = .error e) : e.cause = .readOverrun := by
  rw [(readBits_error.1 h).2, Raise.cause]

theorem readView_raises (h : readView k w s = .error e) : e.cause = .readOverrun :=
  readBits_raises (readView_error.1 h)

theorem widthOperand_raises {w : Imm} (h : widthOperand w = .error e) : e.cause = .illegalOperand := by
  rw [(widthOperand_error.1 h).2, Raise.cause]

theorem fieldOperand_raises {i : Imm} (h : fieldOperand i s = .error e) : e.cause = .illegalOperand := by
  rw [(fieldOperand_error.1 h).2, Raise.cause]

end Listed

/-- A command raises only causes it is listed for. -/
theorem mem_raisersOf {i : Instr} {s : State} {cw : CommandWord} {c : Cause} {info : DataWord}
    (h : exec i s = .next (faulted s cw c info)) : mnemonic i ∈ raisersOf c := by
  cases i
  case clrst | bsStr | isBin | bsLen | fromU64 | fromF32 | wFlush | rLoad =>
    exact absurd (Host.Outcome.next.inj h) answered_ne_faulted
  all_goals obtain ⟨e, raised, rfl⟩ := error_of_finish_faulted h
  case fromU16 | fromU32 | fromI32 => simp [(fromView_raises raised).1, raisersOf, mnemonic]
  case asU16 | asU32 | asI32 | asU64 | asF32 | asNum =>
    simp [asView_raises raised, raisersOf, mnemonic]
  case wU16 | wU32 | wI32 | wU64 | wF32 =>
    rcases writeView_raises raised with cause | ⟨cause, ranged⟩ <;>
      simp_all [raisersOf, mnemonic]
  case rU16 | rU32 | rI32 | rU64 | rF32 => simp [readView_raises raised, raisersOf, mnemonic]
  case rdreg =>
    split at raised <;> cases raised
    simp [csrOperand_error ‹_›, Raise.cause, raisersOf, mnemonic]
  case wrreg =>
    split at raised
    · cases raised
      simp [csrOperand_error ‹_›, Raise.cause, raisersOf, mnemonic]
    · simp [csrWrite_error raised, Raise.cause, raisersOf, mnemonic]
  case bsText =>
    split at raised
    · cases raised
      simp [Raise.cause, raisersOf, mnemonic]
    · split at raised <;> cases raised
      obtain ⟨_, _, _, -, -, -, rfl⟩ := digitsFrom_error ‹_›
      simp [Raise.cause, raisersOf, mnemonic]
  case fromNum =>
    split at raised
    · cases raised
      simp [widthOperand_raises ‹_›, raisersOf, mnemonic]
    · simp [(fromView_raises raised).1, raisersOf, mnemonic]
  case wNum =>
    split at raised
    · cases raised
      simp [widthOperand_raises ‹_›, raisersOf, mnemonic]
    · rcases writeView_raises raised with cause | ⟨cause, -⟩ <;> simp [cause, raisersOf, mnemonic]
  case rNum =>
    split at raised
    · cases raised
      simp [widthOperand_raises ‹_›, raisersOf, mnemonic]
    · simp [readView_raises raised, raisersOf, mnemonic]
  case wBits => simp [(append_error.1 raised).2, Raise.cause, raisersOf, mnemonic]
  case rBits | rSkip | fdHdr =>
    split at raised <;> cases raised
    simp [readBits_raises ‹_›, raisersOf, mnemonic]
  case schFd =>
    split at raised
    · cases raised
      simp [fieldOperand_raises ‹_›, raisersOf, mnemonic]
    · split at raised <;> cases raised
      simp [descriptorOperand_error ‹_›, Raise.cause, raisersOf, mnemonic]
  case schDef | fvWr | fvRd =>
    split at raised <;> cases raised
    simp [fieldOperand_raises ‹_›, raisersOf, mnemonic]
  case feEnc =>
    split at raised
    · cases raised
      obtain ⟨_, _, -, -, rfl⟩ := encodeFields_error ‹_›
      simp [Raise.cause, raisersOf, mnemonic]
    · split at raised
      · cases raised
        simp [Raise.cause, raisersOf, mnemonic]
      · split at raised <;> cases raised
        simp [Raise.cause, raisersOf, mnemonic]
  case fdBody =>
    split at raised
    · cases raised
      simp [Raise.cause, raisersOf, mnemonic]
    · split at raised
      · cases raised
        obtain ⟨_, _, rfl⟩ := decodeFields_error ‹_›
        simp [Raise.cause, raisersOf, mnemonic]
      · split at raised <;> cases raised
        rcases lenPolicy_error ‹_› with rfl | rfl <;> simp [Raise.cause, raisersOf, mnemonic]
  case fdSkip =>
    split at raised
    · cases raised
      simp [Raise.cause, raisersOf, mnemonic]
    · split at raised <;> cases raised
      simp [readBits_raises ‹_›, raisersOf, mnemonic]

/-- Settles O14: the list of R260 for each cause is `raisersOf`. -/
theorem onlyTheListedCommandsRaiseACause : Obligations.OnlyTheListedCommandsRaiseACause := by
  rintro i s t c info h rfl
  have listed := mem_raisersOf h
  cases c
  case invalidCharacter | frameConsistency => exact List.mem_singleton.1 listed
  case illegalCommand => exact absurd listed List.not_mem_nil
  all_goals exact listed

end Sys2Proof.Machine
end

section
/-!
PROOFS. The storage invariant (10_state.md R23 to R37): each update of the state keeps it, so each completed
command, each fault, each reset and each step does.
-/

namespace Sys2Proof.Machine

open Sys2Proof.Spec

/-! ### Reset -/

/-- Every register is empty, no header is latched and no fault recorded; the lists have MAX_FIELDS entries. -/
theorem inv_resetWith {p : Params} (valid : p.Valid) : (State.resetWith p).Inv where
  params := valid
  bsCap r := by rw [resetWith_readBS]; exact Nat.zero_le _
  wCap := Nat.zero_le _
  rCap := Nat.zero_le _
  pos := Nat.zero_le _
  latch := nofun
  nf := Nat.zero_le _
  fdCount := List.length_replicate
  defCount := List.length_replicate
  fvCount := List.length_replicate
  descriptors i := by rw [resetWith_descriptor]; rfl
  record := ⟨rfl, rfl, fun _ => ⟨rfl, rfl⟩⟩

/-- Settles O16: the default parameters are legal. -/
theorem resetStateMeetsTheInvariant : Obligations.ResetStateMeetsTheInvariant :=
  ⟨inv_resetWith (by decide), fun _ => inv_resetWith⟩

/-! ### The updates of the state -/

section Updates

variable {s u : State}

/-- The record's consistency is about STATUS and the two record registers alone. -/
theorem FaultRecordOk.of_same (h : FaultRecordOk s)
    (same : u.status.err = s.status.err ∧ u.status.fcause = s.status.fcause ∧
      u.status.lcause = s.status.lcause ∧ u.faultCmd = s.faultCmd ∧ u.faultInfo = s.faultInfo) :
    FaultRecordOk u := by
  obtain ⟨err, fcause, lcause, cmd, info⟩ := same
  refine ⟨?_, ?_, ?_⟩
  · rw [err, fcause, h.fcause]
  · rw [err, lcause, h.lcause]
  · rw [err, cmd, info]
    exact h.clean

theorem FaultRecordOk.of_rfl (h : FaultRecordOk s) (status : u.status = s.status)
    (cmd : u.faultCmd = s.faultCmd) (info : u.faultInfo = s.faultInfo) : FaultRecordOk u :=
  h.of_same ⟨by rw [status], by rw [status], by rw [status], cmd, info⟩

theorem inv_setRes (h : s.Inv) (v : DataWord) : (s.setRes v).Inv :=
  { h with record := h.record.of_rfl rfl rfl rfl }

theorem inv_useDraw (h : s.Inv) (k : Kind) : (s.useDraw k).Inv :=
  { h with record := h.record.of_rfl rfl rfl rfl }

theorem inv_withDraws (h : s.Inv) (n : Nat) : { s with nanDraws := n }.Inv :=
  { h with record := h.record.of_rfl rfl rfl rfl }

theorem inv_respond (h : s.Inv) (text : List Byte) : (s.respond text).Inv :=
  { h with record := h.record.of_rfl rfl rfl rfl }

theorem inv_setHostIn (h : s.Inv) (rest : List HostEvent) : (s.setHostIn rest).Inv :=
  { h with record := h.record.of_rfl rfl rfl rfl }

theorem inv_applyReset (h : s.Inv) (rest : List HostEvent) : (s.applyReset rest).Inv :=
  { inv_resetWith h.params with record := (inv_resetWith h.params).record.of_rfl rfl rfl rfl }

theorem inv_acknowledge (h : s.Inv) : s.acknowledge.Inv :=
  { h with record := ⟨rfl, rfl, fun _ => ⟨rfl, rfl⟩⟩ }

/-- A fault holds a first and a last cause from then on. -/
theorem inv_takeFault (h : s.Inv) (cw : CommandWord) (e : Raise) : (s.takeFault cw e).Inv := by
  have held : (s.status.recordFault e.cause).fcause.isSome = true := by
    unfold Status.recordFault
    cases s.status.fcause <;> rfl
  exact { h with record := ⟨held.symm, rfl, nofun⟩ }

theorem inv_writeBS (h : s.Inv) (r : BsReg) {b : BitString} (fits : b.length ≤ s.params.capBits) :
    (s.writeBS r b).Inv :=
  { h with
    bsCap := fun q => by
      rw [writeBS_readBS]
      split
      · exact fits
      · exact h.bsCap q
    record := h.record.of_rfl rfl rfl rfl }

theorem inv_withWriter (h : s.Inv) {b : BitString} (fits : b.length ≤ s.params.capBits) :
    { s with wBuf := b }.Inv :=
  { h with
    wCap := fits
    record := h.record.of_rfl rfl rfl rfl }

/-- A cursor that moves inside the source, the latch cleared. -/
theorem inv_moveReader (h : s.Inv) {p : Nat} (inside : p ≤ s.rSrc.length) :
    { s with rPos := p }.clearLatch.Inv :=
  { h with
    pos := inside
    latch := nofun
    record := h.record.of_rfl rfl rfl rfl }

theorem inv_loadReader (h : s.Inv) {b : BitString} (fits : b.length ≤ s.params.capBits) :
    (s.loadReader b).clearLatch.Inv :=
  { h with
    rCap := fits
    pos := Nat.zero_le _
    latch := nofun
    record := h.record.of_rfl rfl rfl rfl }

theorem inv_writeDescriptor (h : s.Inv) {i : Nat} {f : Descriptor} (index : i < s.params.maxFields)
    (wf : f.wf = true) : (s.writeDescriptor i f).Inv :=
  { h with
    fdCount := List.length_set.trans h.fdCount
    descriptors := fun j => by
      rw [writeDescriptor_descriptor s i j f (h.fdCount ▸ index)]
      split
      · exact wf
      · exact h.descriptors j
    record := h.record.of_rfl rfl rfl rfl }

theorem inv_writeDefault (h : s.Inv) (i : Nat) (v : DataWord) : (s.writeDefault i v).Inv :=
  { h with
    defCount := List.length_set.trans h.defCount
    record := h.record.of_rfl rfl rfl rfl }

theorem inv_writeFieldValue (h : s.Inv) (i : Nat) (v : DataWord) : (s.writeFieldValue i v).Inv :=
  { h with
    fvCount := List.length_set.trans h.fvCount
    record := h.record.of_rfl rfl rfl rfl }

/-- A header is latched with the reader at its payload: the position fits the 32 bits of FD.PSTART, since
CAP_BITS does. -/
theorem inv_latchHeader (h : s.Inv) (b : BitString) (inside : s.rPos + 64 ≤ s.rSrc.length) :
    ({ s with rPos := s.rPos + 64 }.latchHeader b).Inv := by
  obtain ⟨-, capBound, -, -⟩ := h.params
  have rCap := h.rCap
  have start : (BitVec.ofNat 32 (s.rPos + 64)).toNat = s.rPos + 64 := by
    rw [BitVec.toNat_ofNat]
    omega
  exact { h with
    pos := inside
    latch := fun _ => ⟨start.symm, (Nat.le_add_left 64 s.rPos).trans_eq start.symm⟩
    record := h.record.of_rfl rfl rfl rfl }

end Updates

/-! ### Commands and steps -/

theorem fixedWidth_getD (k : Kind) (w : Nat) : k.fixedWidth.getD w = widthOf k w := by cases k <;> rfl

theorem widthOf_widthOf (k : Kind) (w : Nat) : widthOf k (widthOf k w) = widthOf k w := by
  cases k <;> rfl

/-- An encoding has the width of its kind. -/
theorem encode_length {fe : Option Nat} {k : Kind} {w : Nat} {x : DataWord} {s : State} {b : BitString}
    (h : s.encode fe k w x = .ok b) : b.length = widthOf k w :=
  (encK_length h).trans (fixedWidth_getD k w)

theorem widthOf_le {k : Kind} {w : Imm} (h : WidthOk k w) : widthOf k w.toNat ≤ 64 := by
  cases k
  case num => exact (h rfl).2
  all_goals simp [widthOf]


section Commands

variable {i : Instr} {s u : State}

/-- Every completed command keeps the invariant. -/
theorem inv_effect (h : s.Inv) (effect : Effect s i u) : u.Inv := by
  have pos := h.pos
  cases effect
  case rdreg | isBin | bsLen | fvRd => exact inv_setRes h _
  case wrreg written =>
    obtain ⟨_, _, _, _, rfl, nf⟩ := csrWrite_frame written
    exact { h with
      nf := nf h.nf
      record := h.record.of_rfl rfl rfl rfl }
  case clrst => exact inv_acknowledge h
  case bsText rd text b fits digits => exact inv_writeBS h rd ((digitsFrom_length digits).trans_le fits)
  case bsStr => exact h
  case fromValue k rd w d b width encoded =>
    have fits : b.length ≤ s.params.capBits := by
      obtain ⟨capacity, -, -, -⟩ := h.params
      have short := widthOf_le width
      rw [encode_length encoded, widthOf_widthOf]
      omega
    exact inv_useDraw (inv_writeBS h rd fits) k
  case asValue k rs v _ _ => exact inv_useDraw (inv_setRes h v) k
  case writeValue k w d b width encoded fits =>
    exact inv_withWriter (inv_useDraw h k) (List.length_append.trans_le fits)
  case wBits rs fits => exact inv_withWriter h (List.length_append.trans_le fits)
  case wFlush rd v => exact inv_withWriter (inv_setRes (inv_writeBS h rd h.wCap) v) (Nat.zero_le _)
  case readValue k w v width left value =>
    exact inv_useDraw (inv_setRes (inv_moveReader h (by omega)) v) k
  case rBits rd n left =>
    have fits : (slice s.rSrc s.rPos n.toNat).length ≤ s.params.capBits := by
      have rCap := h.rCap
      rw [slice_length]
      omega
    exact inv_writeBS (inv_moveReader (p := s.rPos + n.toNat) h (by omega)) rd fits
  case rSkip n left => exact inv_moveReader h (by omega)
  case rLoad rs => exact inv_loadReader h (h.bsCap rs)
  case schFd j d f index operand => exact inv_writeDescriptor h index (descriptorOperand_ok operand).1
  case schDef j d _ => exact inv_writeDefault h _ d
  case fvWr j d _ => exact inv_writeFieldValue h _ d
  case feEnc rd v b t encoded _ fits =>
    obtain ⟨_, draws, -, rfl⟩ := encodeFields_frame encoded
    exact inv_setRes (inv_writeBS (inv_withDraws h draws) rd fits) _
  case fdHdr v left => exact inv_setRes (inv_latchHeader h _ (by omega)) v
  case fdBody v c t u' _ walk policy =>
    obtain ⟨fv, n, draws, short, long, same, fields, moved, -⟩ := fdBody_frame walk policy
    rw [same]
    exact { h with
      pos := moved h.pos
      latch := nofun
      fvCount := fields.trans h.fvCount
      record := h.record.of_same ⟨rfl, rfl, rfl, rfl, rfl⟩ }
  case fdSkip _ left => exact inv_moveReader h (by omega)

theorem inv_exec (h : s.Inv) (executed : exec i s = .next u) : u.Inv := by
  rcases exec_cases executed with ⟨t, text, effect, rfl⟩ | ⟨e, rfl⟩
  · exact inv_respond (inv_effect h effect) text
  · exact inv_takeFault h _ e

end Commands

/-- Settles O15: a step waits, resets, runs a command or takes IllegalCommand. -/
theorem stepKeepsTheInvariant : Obligations.StepKeepsTheInvariant := by
  intro s t h stepped
  rcases step_cases s with same | ⟨rest, same⟩ | ⟨i, rest, same⟩ | ⟨cw, rest, same⟩ <;>
    rw [same] at stepped
  · exact Host.Outcome.next.inj stepped ▸ h
  · exact Host.Outcome.next.inj stepped ▸ inv_applyReset h rest
  · exact inv_exec (inv_setHostIn h rest) stepped
  · exact Host.Outcome.next.inj stepped ▸ inv_takeFault (inv_setHostIn h rest) cw .illegalCommand

/-- Settles O17: no command writes the parameters, and reset keeps them. -/
theorem parametersNeverChange : Obligations.ParametersNeverChange := by
  intro s t stepped
  rcases step_cases s with same | ⟨rest, same⟩ | ⟨i, rest, same⟩ | ⟨cw, rest, same⟩ <;>
    rw [same] at stepped
  · exact Host.Outcome.next.inj stepped ▸ rfl
  · exact Host.Outcome.next.inj stepped ▸ rfl
  · rcases exec_cases stepped with ⟨u, text, effect, rfl⟩ | ⟨e, rfl⟩
    · exact (effect_ports effect).2.2
    · rfl
  · exact Host.Outcome.next.inj stepped ▸ rfl

end Sys2Proof.Machine
end

section
/-!
PROOFS. Digits and numbers (00_scope.md R9 to R14).
-/

namespace Sys2Proof.Machine

open Sys2Proof.Spec

/-! ### The digits of a number -/

theorem bitsOf_getElem? {n p : Nat} (v : Nat) (h : p < n) :
    (bitsOf n v)[p]? = some (v.testBit (n - 1 - p)) := by
  induction n generalizing p with
  | zero => omega
  | succ n ih =>
    cases p with
    | zero => rfl
    | succ p =>
      rw [bitsOf, List.getElem?_cons_succ, ih (by omega)]
      congr 2
      omega

/-- Settles O18: the digits by their positions, the width by the check of `encUnsigned`. -/
theorem digitsOfANumber : Obligations.DigitsOfANumber := fun n v =>
  ⟨bitsOf_length n v, fun _ => bitsOf_getElem? v,
    fun _ => ⟨fun fits => encUnsigned_ok.2 ⟨fits, rfl⟩, fun above => encUnsigned_error.2 ⟨above, rfl⟩⟩⟩

/-- The low digits of a number do not see what is added above them. -/
theorem bitsOf_add_mul {n m : Nat} (a : Nat) {v : Nat} (above : n ≤ m) (fits : v < 2 ^ m) :
    bitsOf n (a * 2 ^ m + v) = bitsOf n v := by
  induction n with
  | zero => rfl
  | succ n ih =>
    rw [bitsOf, bitsOf, ih (by omega), mul_comm, Nat.testBit_two_pow_mul_add a fits,
      if_pos (by omega)]

/-! ### The value of digits -/

/-- The value keeps the bits there are digits for. -/
theorem uval_bitsOf (n v : Nat) : uval (bitsOf n v) = v % 2 ^ n := by
  induction n with
  | zero => rw [bitsOf, uval, pow_zero, Nat.mod_one]
  | succ n ih =>
    rw [bitsOf, uval, ih, bitsOf_length, Nat.mod_pow_succ, Nat.toNat_testBit, mul_comm, add_comm]

theorem uval_bitsOf_of_lt {n v : Nat} (h : v < 2 ^ n) : uval (bitsOf n v) = v := by
  rw [uval_bitsOf, Nat.mod_eq_of_lt h]

/-- Each digit counts at its place. -/
theorem uval_eq_sum (b : BitString) :
    uval b = ∑ p : Fin b.length, (b[p]).toNat * 2 ^ (b.length - 1 - p.val) := by
  induction b with
  | nil => rfl
  | cons d ds ih =>
    have places : ∀ p : Fin ds.length, ds.length - 1 - p.val = ds.length - (p.val + 1) := by
      intro p; omega
    simp [uval, ih, Fin.sum_univ_succ, places]

theorem bitsOf_uval (b : BitString) : bitsOf b.length (uval b) = b := by
  induction b with
  | nil => rfl
  | cons d ds ih =>
    have first : (d.toNat * 2 ^ ds.length + uval ds).testBit ds.length = d := by
      rw [mul_comm, Nat.testBit_two_pow_mul_add _ (uval_lt ds), if_neg (lt_irrefl _), Nat.sub_self]
      cases d <;> rfl
    rw [List.length_cons, bitsOf, uval, first, bitsOf_add_mul _ le_rfl (uval_lt ds), ih]

/-- Settles O19: the sum by induction on the digits, the inverse because no bit is cut. -/
theorem valueOfDigits : Obligations.ValueOfDigits :=
  ⟨uval_eq_sum, rfl, fun _ _ _ => uval_bitsOf_of_lt⟩

/-- Settles O20: by induction, the first digit being the uppermost bit of the value. -/
theorem digitsOfTheValueAreTheString : Obligations.DigitsOfTheValueAreTheString := fun b =>
  ⟨uval_lt b, bitsOf_uval b⟩

end Sys2Proof.Machine
end

section
/-!
PROOFS. The numeric views (41_numeric_codec.md R121 to R137) and the information words (60_exceptions.md R270).
-/

namespace Sys2Proof.Machine

open Sys2Proof.Spec

/-! ### i32 -/

section I32

variable {fe : Option Nat} {v : Int} {off : Nat} {b : BitString}

/-- What `enc_i32` accepts has the digits of R124. -/
theorem encI32_eq_ok : encI32 fe v off = .ok b ↔ I32Encodable v off ∧ b = i32Bits v off := by
  constructor
  · intro h
    have encodable := i32Encodable_of_encI32_ok h
    rw [encI32_of_encodable encodable] at h
    exact ⟨encodable, (Except.ok.inj h).symm⟩
  · rintro ⟨encodable, rfl⟩
    exact encI32_of_encodable encodable

/-- The flag digit 1 is worth 2^31 in 32 digits. -/
theorem bitsOf_flag_set {x : Nat} (h : x < 2 ^ 31) : bitsOf 32 (x + 2 ^ 31) = true :: bitsOf 31 x := by
  have shift : x + 2 ^ 31 = 1 * 2 ^ 31 + x := by omega
  rw [bitsOf, shift, bitsOf_add_mul 1 le_rfl h, one_mul, Nat.testBit_two_pow_add_eq,
    Nat.testBit_lt_two_pow h]
  rfl

theorem bitsOf_flag_clear {x : Nat} (h : x < 2 ^ 31) : bitsOf 32 x = false :: bitsOf 31 x := by
  rw [bitsOf, Nat.testBit_lt_two_pow h]

/-- Under the default offset the flag is the carry into position 0. -/
theorem i32Bits_defaultOffset (low : -2 ^ 31 ≤ v) (high : v ≤ 2 ^ 31 - 1) :
    i32Bits v (2 ^ 31) = bitsOf 32 (v + 2 ^ 31).toNat := by
  unfold i32Bits
  split
  · have sum : (v + 2 ^ 31).toNat = v.toNat + 2 ^ 31 := by omega
    rw [sum, bitsOf_flag_set (by omega)]
  · rw [bitsOf_flag_clear (by omega)]
    norm_cast

/-- The two's-complement pattern differs in position 0 alone. -/
theorem bitsOf_twosComplement (low : -2 ^ 31 ≤ v) (high : v ≤ 2 ^ 31 - 1) :
    ∃ first others, bitsOf 32 (BitVec.ofInt 32 v).toNat = first :: others ∧
      bitsOf 32 (v + 2 ^ 31).toNat = (!first) :: others := by
  rw [BitVec.toNat_ofInt]
  by_cases sign : 0 ≤ v
  · have pattern : (v % ((2 ^ 32 : Nat) : Int)).toNat = v.toNat := by omega
    have sum : (v + 2 ^ 31).toNat = v.toNat + 2 ^ 31 := by omega
    rw [pattern, sum]
    exact ⟨false, _, bitsOf_flag_clear (by omega), bitsOf_flag_set (by omega)⟩
  · have pattern : (v % ((2 ^ 32 : Nat) : Int)).toNat = (v + 2 ^ 31).toNat + 2 ^ 31 := by omega
    rw [pattern]
    exact ⟨true, _, bitsOf_flag_set (by omega), bitsOf_flag_clear (by omega)⟩

/-- Decoding reads the flag and the 31 magnitude digits. -/
theorem decI32_cons {d : Bool} {x : Nat} (h : x < 2 ^ 31) (o : Nat) :
    decI32 (d :: bitsOf 31 x) o = if d then (x : Int) else (x : Int) - o := by
  have magnitude : slice (d :: bitsOf 31 x) 1 31 = bitsOf 31 x := by
    rw [slice, List.drop_one, List.tail_cons, List.take_of_length_le (bitsOf_length 31 x).le]
  rw [decI32, magnitude, uval_bitsOf_of_lt h, List.headD_cons]

end I32

/-- Settles O22: the added offset carries into the flag. -/
theorem defaultI32EncodingIsOffsetBinary : Obligations.DefaultI32EncodingIsOffsetBinary := by
  intro v low high
  refine ⟨encI32_eq_ok.2 ⟨i32Encodable_defaultOffset.2 ⟨low, high⟩, ?_⟩, bitsOf_twosComplement low high⟩
  exact (i32Bits_defaultOffset low high).symm

/-- Settles O23: only a negative value's magnitude holds the offset. -/
theorem i32RoundTripAndOffsetMismatch : Obligations.I32RoundTripAndOffsetMismatch := by
  intro fe v o1 b encoded
  rcases encI32_ok encoded with ⟨sign, fits, rfl⟩ | ⟨sign, low, high, rfl⟩
  · refine ⟨?_, fun o2 negative => absurd sign (Int.not_le.2 negative)⟩
    rw [decI32_cons (by omega), if_pos rfl]
    omega
  · have decoded (o : Nat) : decI32 (false :: bitsOf 31 (v + o1).toNat) o = v + o1 - o := by
      rw [decI32_cons (by omega), if_neg (by decide)]
      omega
    exact ⟨(decoded o1).trans (by omega), fun o2 _ => decoded o2⟩

/-! ### u64 -/

/-- A slice up to the end is a drop. -/
theorem slice_to_end {b : BitString} {p n : Nat} (h : b.length = p + n) : slice b p n = b.drop p :=
  List.take_of_length_le (by rw [List.length_drop]; omega)

theorem slice_append_left {a b : BitString} {n : Nat} (h : a.length = n) : slice (a ++ b) 0 n = a := by
  rw [slice, List.drop_zero, List.take_left' h]

theorem slice_append_right {a b : BitString} {p n : Nat} (ha : a.length = p) (hb : b.length = n) :
    slice (a ++ b) p n = b := by
  rw [slice, List.drop_left' ha, List.take_of_length_le hb.le]

theorem decU64_eq {b : BitString} (h : b.length = 64) :
    decU64 b = uval (b.drop 32) * 2 ^ 32 + uval (b.take 32) := by
  rw [decU64, slice_to_end (p := 32) h]
  rfl

section U64

variable (v : DataWord)

theorem encU64_eq : encU64 v = bitsOf 32 (v.toNat % 2 ^ 32) ++ bitsOf 32 (v.toNat / 2 ^ 32) := by
  have high : v.toNat / 2 ^ 32 % 2 ^ 32 = v.toNat / 2 ^ 32 := Nat.mod_eq_of_lt (by omega)
  rw [encU64, BitVec.extractLsb'_toNat, BitVec.extractLsb'_toNat, Nat.shiftRight_zero,
    Nat.shiftRight_eq_div_pow, high]

theorem slice_encU64_low : slice (encU64 v) 0 32 = bitsOf 32 (v.toNat % 2 ^ 32) := by
  rw [encU64_eq, slice_append_left (bitsOf_length _ _)]

theorem slice_encU64_high : slice (encU64 v) 32 32 = bitsOf 32 (v.toNat / 2 ^ 32) := by
  rw [encU64_eq, slice_append_right (bitsOf_length _ _) (bitsOf_length _ _)]

theorem uval_low : uval (bitsOf 32 (v.toNat % 2 ^ 32)) = v.toNat % 2 ^ 32 :=
  uval_bitsOf_of_lt (Nat.mod_lt _ (by decide))

theorem uval_high : uval (bitsOf 32 (v.toNat / 2 ^ 32)) = v.toNat / 2 ^ 32 :=
  uval_bitsOf_of_lt (by omega)

theorem decU64_encU64 : decU64 (encU64 v) = v.toNat := by
  rw [decU64, slice_encU64_low, slice_encU64_high, uval_low, uval_high]
  omega

end U64

/-- Settles O24: the two halves are the two slices of 32 digits. -/
theorem u64HalvesAreSwapped : Obligations.U64HalvesAreSwapped := by
  refine ⟨fun b => decU64_eq, fun v => ⟨encU64_eq v, decU64_encU64 v, ?_, ?_⟩⟩
  · rw [decK, slice_encU64_low, uval_low]
  · rw [decK, slice_encU64_high, uval_high]

/-! ### f32 -/

theorem isNaN_iff (f : BitVec 32) : isNaN f = true ↔ NaNPattern f := by
  simp [isNaN, NaNPattern, ← BitVec.toNat_inj, BitVec.extractLsb'_toNat, Nat.shiftRight_eq_div_pow]

/-- Every draw is a NaN pattern. -/
theorem drawNaN_isNaN (raw : BitVec 32) : NaNPattern (drawNaN raw) := by
  unfold drawNaN
  split
  · exact (isNaN_iff raw).1 ‹_›
  · exact (isNaN_iff _).1 rfl

theorem passF32_of_nan {f : BitVec 32} (raw : BitVec 32) (h : NaNPattern f) :
    passF32 f raw = drawNaN raw := if_pos ((isNaN_iff f).2 h)

theorem passF32_of_not_nan {f : BitVec 32} (raw : BitVec 32) (h : ¬NaNPattern f) : passF32 f raw = f :=
  if_neg fun nan => h ((isNaN_iff f).1 nan)

theorem passF32_image (f raw : BitVec 32) : F32Image f (passF32 f raw) :=
  ⟨fun nan => passF32_of_nan raw nan ▸ drawNaN_isNaN raw, passF32_of_not_nan raw⟩

/-- The draw of a NaN pattern is the pattern, so each is admitted. -/
theorem drawNaN_of_nan {g : BitVec 32} (h : NaNPattern g) : drawNaN g = g :=
  if_pos ((isNaN_iff g).2 h)

theorem decF32_encF32 {f : BitVec 32} (raw raw' : BitVec 32) (h : ¬NaNPattern f) :
    decF32 (encF32 f raw) raw' = f := by
  rw [decF32, encF32, passF32_of_not_nan raw h, uval_bitsOf_of_lt f.isLt, BitVec.ofNat_toNat,
    BitVec.setWidth_eq, passF32_of_not_nan raw' h]

/-- Settles O25: a NaN pattern is the draw of itself. -/
theorem f32PassesPatternsAndDrawsNaNs : Obligations.F32PassesPatternsAndDrawsNaNs :=
  ⟨passF32_image,
    fun _ g nan drawn => ⟨g, (passF32_of_nan g nan).trans (drawNaN_of_nan drawn)⟩,
    fun _ _ => rfl, fun _ raw raw' => decF32_encF32 raw raw'⟩

/-! ### Every view -/

section Views

variable {fe : Option Nat} {k : Kind} {w : Nat} {x : DataWord} {off raw raw' : BitVec 32} {b : BitString}

/-- A value of a view's range encodes, to digits the independent table admits. -/
theorem encK_of_fits (h : Fits k w x off.toNat) :
    ∃ b, encK fe k w x off raw = .ok b ∧ BitsFor k w x off.toNat b := by
  cases k
  case u16 | u32 | num => exact ⟨_, encUnsigned_ok.2 ⟨h, rfl⟩, rfl⟩
  case i32 => exact ⟨_, encI32_of_encodable h, rfl⟩
  case u64 =>
    have high : x.toNat / 2 ^ 32 % 2 ^ 32 = x.toNat / 2 ^ 32 := Nat.mod_eq_of_lt (by omega)
    refine ⟨encU64 x, rfl, ?_⟩
    rw [BitsFor, u64Bits, high, encU64_eq]
  case f32 => exact ⟨_, rfl, _, passF32_image (low32 x) raw, rfl⟩

theorem encK_of_not_fits (h : ¬Fits k w x off.toNat) :
    encK fe k w x off raw = .error (.rangeError fe (rangeWidth k w)) := by
  cases k
  case u16 | u32 | num => exact encUnsigned_error.2 ⟨Nat.le_of_not_lt h, rfl⟩
  case i32 => exact encI32_of_not_encodable h
  case u64 | f32 => exact absurd trivial h

theorem ofNat_uval_bitsOf {n : Nat} (h : x.toNat < 2 ^ n) :
    BitVec.ofNat 64 (uval (bitsOf n x.toNat)) = x := by
  rw [uval_bitsOf_of_lt h, BitVec.ofNat_toNat, BitVec.setWidth_eq]

/-- Decoding undoes encoding under one offset; a NaN, which is drawn anew, aside. -/
theorem decK_encK (h : encK fe k w x off raw = .ok b) (notNaN : k = .f32 → ¬NaNPattern (low32 x)) :
    decK k b off raw' = hostValue k x := by
  cases k
  case u16 | u32 | num =>
    obtain ⟨fits, rfl⟩ := encUnsigned_ok.1 h
    exact ofNat_uval_bitsOf fits
  case i32 =>
    rw [decK, (i32RoundTripAndOffsetMismatch fe x.toInt off.toNat b h).1, BitVec.ofInt_toInt, hostValue]
  case u64 =>
    obtain rfl := Except.ok.inj h
    rw [decK, decU64_encU64, BitVec.ofNat_toNat, BitVec.setWidth_eq, hostValue]
  case f32 =>
    obtain rfl := Except.ok.inj h
    rw [decK, lowWord_eq_low32, decF32_encF32 raw raw' (notNaN rfl), hostValue]
    apply BitVec.eq_of_toNat_eq
    simp [low32]

theorem admitsWidth_widthOf (h : k = .num → 1 ≤ w ∧ w ≤ 64) : k.admitsWidth (widthOf k w) = true := by
  cases k
  case num =>
    obtain ⟨low, high⟩ := h rfl
    exact Bool.and_eq_true_iff.2 ⟨decide_eq_true low, decide_eq_true high⟩
  all_goals rfl

theorem admitsWidth_iff (k : Kind) (n : Nat) : k.admitsWidth n = true ↔ LengthOk k n := by
  cases k <;> simp [Kind.admitsWidth, Kind.fixedWidth, LengthOk, widthOf]

/-- On 32 digits the decoder's slice is the rest after the flag. -/
theorem decI32_eq_i32Value {o : Nat} (h : b.length = 32) : decI32 b o = i32Value b o := by
  have rest : slice b 1 31 = b.drop 1 := slice_to_end (p := 1) h
  rw [decI32, i32Value, rest]
  cases b with
  | nil => cases h
  | cons d ds => cases d <;> rfl

/-- The decoder against the independent table of values. -/
theorem decK_decodesTo (h : LengthOk k b.length) : DecodesTo k off.toNat b (decK k b off raw) := by
  cases k
  case u16 | u32 | num => rfl
  case i32 => rw [DecodesTo, decK, decI32_eq_i32Value h]
  case u64 => rw [DecodesTo, decK, decU64_eq h, u64Value]
  case f32 => exact ⟨_, passF32_image _ raw, (BitVec.ofNat_toNat 64 _).symm⟩

end Views

/-- Settles O26: the digits by kind, their width from the encoding, which the length check admits. -/
theorem everyViewRoundTrips : Obligations.EveryViewRoundTrips := by
  intro fe k w x off raw raw' width fits
  obtain ⟨b, encoded, digits⟩ := encK_of_fits (fe := fe) (raw := raw) fits
  have length : b.length = widthOf k w := (encK_length encoded).trans (fixedWidth_getD k w)
  refine ⟨b, encoded, digits, length, checkLen_ok.2 ?_, fun notNaN => decK_encK encoded notNaN⟩
  rw [length]
  exact admitsWidth_widthOf width

/-- Settles O27: by kind; a u64 and an f32 always fit. -/
theorem unencodableValuesRaiseRangeError : Obligations.UnencodableValuesRaiseRangeError :=
  fun _ _ _ _ _ _ => encK_of_not_fits

/-- Settles O28: by kind; the slices of `decI32` and `decU64` reach the end of the digits. -/
theorem decodingGivesTheViewsValue : Obligations.DecodingGivesTheViewsValue :=
  fun _ _ _ _ => decK_decodesTo

/-! ### Information words -/

/-- FE_ENC's mark, the field index and the width stand side by side. -/
theorem rangeError_some_info {i w : Nat} (hi : i < 2 ^ 8) (hw : w < 2 ^ 8) :
    (Raise.rangeError (some i) w).info = BitVec.ofNat 64 (2 ^ 16 + i * 2 ^ 8 + w) := by
  have field : i <<< 8 < 2 ^ 16 := by rw [Nat.shiftLeft_eq]; omega
  rw [Raise.info, ← Nat.shiftLeft_add_eq_or_of_lt field, Nat.shiftLeft_eq i, Nat.shiftLeft_eq 1]
  have units : 1 * 2 ^ 16 + i * 2 ^ 8 = (2 ^ 8 + i) <<< 8 := by rw [Nat.shiftLeft_eq]; omega
  rw [units, ← Nat.shiftLeft_add_eq_or_of_lt hw, ← units, one_mul]

/-- The request ReadOverrun reports is clipped to 32 bits. -/
theorem readOverrun_info_clipped (left asked : Nat) :
    (Raise.readOverrun left asked).info = infoPair left (min asked 0xFFFFFFFF) :=
  pairWord_eq_infoPair ((Nat.min_le_right _ _).trans_lt (by decide))

/-- Settles O29: a number that fits its field is not cut, and ReadOverrun clips its request. -/
theorem informationWordLayout : Obligations.InformationWordLayout :=
  ⟨fun _ _ => pairWord_eq_infoPair, fun _ _ => pairWord_eq_infoPair,
    readOverrun_info_clipped, fun _ _ => pairWord_eq_infoPair, fun _ => rfl,
    fun _ _ => rangeError_some_info, fun _ => rfl, rfl, rfl, rfl⟩

end Sys2Proof.Machine
end

section
/-!
PROOFS. The BitString commands (40_bitstring_buffer.md).
-/

namespace Sys2Proof.Machine

open Sys2Proof.Spec

section Text

variable {j : Nat} {text before after : List Byte} {c : Byte}

theorem digitOf_eq_some (h : c = 0x30 ∨ c = 0x31) : digitOf c = some (decide (c = 0x31)) := by
  rcases h with rfl | rfl <;> rfl

theorem digitOf_eq_none (h0 : c ≠ 0x30) (h1 : c ≠ 0x31) : digitOf c = none := by
  rw [digitOf, if_neg h0, if_neg h1]

theorem digitOf_isSome_iff (c : Byte) : (digitOf c).isSome = true ↔ c = 0x30 ∨ c = 0x31 := by
  constructor
  · intro some
    by_contra other
    obtain ⟨h0, h1⟩ := not_or.1 other
    rw [digitOf_eq_none h0 h1] at some
    cases some
  · intro digit
    rw [digitOf_eq_some digit, Option.isSome_some]

theorem digitsFrom_of_digits (digits : ∀ c ∈ text, c = 0x30 ∨ c = 0x31) :
    digitsFrom j text = .ok (text.map fun c => decide (c = 0x31)) := by
  induction text generalizing j with
  | nil => rfl
  | cons c cs ih =>
    obtain ⟨first, others⟩ := List.forall_mem_cons.1 digits
    simp only [digitsFrom, digitOf_eq_some first, ih others, List.map_cons]

theorem digitsFrom_of_bad (digits : ∀ c ∈ before, c = 0x30 ∨ c = 0x31) (h0 : c ≠ 0x30) (h1 : c ≠ 0x31) :
    digitsFrom j (before ++ c :: after) = .error (.invalidCharacter c (j + before.length)) := by
  induction before generalizing j with
  | nil => simp only [List.nil_append, digitsFrom, digitOf_eq_none h0 h1, List.length_nil, Nat.add_zero]
  | cons d ds ih =>
    obtain ⟨first, others⟩ := List.forall_mem_cons.1 digits
    simp only [List.cons_append, digitsFrom, digitOf_eq_some first, ih others, List.length_cons,
      Nat.add_assoc, Nat.add_comm 1]

theorem isBinary_iff : isBinary text = true ↔ text ≠ [] ∧ ∀ c ∈ text, c = 0x30 ∨ c = 0x31 := by
  simp only [isBinary, Bool.and_eq_true, decide_eq_true_eq, List.all_eq_true, digitOf_isSome_iff,
    Nat.one_le_iff_ne_zero, ne_eq, List.length_eq_zero_iff]

end Text

/-- Settles O33: every byte is a digit, so the scan gives one digit a byte. -/
theorem bsTextStoresTheDigits : Obligations.BsTextStoresTheDigits := by
  intro s rd text fits digits
  rw [exec, execBsText, if_neg (Nat.not_lt.2 fits), digitsFrom_of_digits digits]
  rfl

/-- Settles O34: the capacity is checked before the characters; a position in a text fits 32 bits. -/
theorem bsTextRejectsBadTexts : Obligations.BsTextRejectsBadTexts := by
  intro s rd text short
  refine ⟨fun above => ?_, fun before after c fits split digits h0 h1 => ?_⟩
  · rw [exec, execBsText, if_pos above, finish_error_faulted]
    rfl
  · have position : 0 + before.length < 2 ^ 32 := by
      have := congrArg List.length split
      rw [List.length_append] at this
      omega
    have bad : digitsFrom 0 text = .error (.invalidCharacter c (0 + before.length)) :=
      split ▸ digitsFrom_of_bad digits h0 h1
    rw [exec, execBsText, if_neg (Nat.not_lt.2 fits), bad, finish_error_faulted, Raise.info,
      pairWord_eq_infoPair position, Nat.zero_add]
    rfl

theorem execIsBin_answered (s : State) (text : List Byte) :
    exec (.isBin text) s = .next (answered { s with res := if isBinary text then 1 else 0 } []) := rfl

/-- Settles O35: IS_BIN by what `isBinary` decides, the other two by their definitions. -/
theorem bsStrIsBinAndBsLenAnswer : Obligations.BsStrIsBinAndBsLenAnswer := by
  refine fun s rs text => ⟨rfl, fun binary => ?_, fun other => ?_, rfl⟩
  · rw [execIsBin_answered, if_pos (isBinary_iff.2 binary)]
  · have notBinary : ¬isBinary text = true := by
      rw [isBinary_iff]
      rintro ⟨nonempty, digits⟩
      rcases other with empty | ⟨c, mem, h0, h1⟩
      · exact nonempty empty
      · exact (digits c mem).elim h0 h1
    rw [execIsBin_answered, if_neg notBinary]

end Sys2Proof.Machine
end

section
/-!
PROOFS. The commands of the six views: codec (41_numeric_codec.md section 2), writer (42_cursor_writer.md) and
reader (43_cursor_reader.md). Each group is one command with the kind as a parameter.
-/

namespace Sys2Proof.Machine

open Sys2Proof.Spec

/-! ### The groups as one command -/

section Groups

variable {s : State} {k : Kind} {w : Imm} {rd rs : BsReg} {d : DataWord}

theorem widthOperand_of_widthOk (h : WidthOk .num w) : widthOperand w = .ok w.toNat :=
  widthOperand_ok.2 ⟨(h rfl).1, (h rfl).2, rfl⟩

theorem widthOperand_of_bad (h : w.toNat = 0 ∨ 64 < w.toNat) : widthOperand w = .error .illegalOperand :=
  widthOperand_error.2 ⟨h, rfl⟩

theorem exec_fromCommand (width : WidthOk k w) :
    exec (fromCommand k rd w d) s =
      finish (commandWord (fromCommand k rd w d)) s (fromView k (widthOf k w.toNat) rd d s) := by
  cases k
  case num => simp only [fromCommand, exec, execFromNum, widthOperand_of_widthOk width, widthOf]
  all_goals rfl

theorem exec_asCommand :
    exec (asCommand k rs) s = finish (commandWord (asCommand k rs)) s (asView k rs s) := by
  cases k <;> rfl

theorem exec_writeCommand (width : WidthOk k w) :
    exec (writeCommand k w d) s =
      finish (commandWord (writeCommand k w d)) s (writeView k (widthOf k w.toNat) d s) := by
  cases k
  case num => simp only [writeCommand, exec, execWNum, widthOperand_of_widthOk width, widthOf]
  all_goals rfl

theorem exec_readCommand (width : WidthOk k w) :
    exec (readCommand k w) s =
      finish (commandWord (readCommand k w)) s (readView k (widthOf k w.toNat) s) := by
  cases k
  case num => simp only [readCommand, exec, execRNum, widthOperand_of_widthOk width, widthOf]
  all_goals rfl

/-- Only a NUM looks at the width it is encoded into. -/
theorem encode_widthOf (fe : Option Nat) (k : Kind) (w : Nat) (d : DataWord) (s : State) :
    s.encode fe k (widthOf k w) d = s.encode fe k w d := by
  cases k <;> rfl

theorem drawsOf_eq_drawCount (k : Kind) : drawsOf k = drawCount k := by cases k <;> rfl

theorem useDraw_eq (s : State) (k : Kind) :
    s.useDraw k = { s with nanDraws := s.nanDraws + drawCount k } := by
  rw [State.useDraw, drawsOf_eq_drawCount]

end Groups

/-! ### FROM_ and AS_ -/

/-- Settles O36: the value encodes, whatever the kind. -/
theorem fromCommandsWriteTheDigits : Obligations.FromCommandsWriteTheDigits := by
  intro s k rd w d width fits
  obtain ⟨b, encoded, digits⟩ := encK_of_fits (fe := none) (raw := s.nextDraw) fits
  refine ⟨b, digits, ?_⟩
  rw [exec_fromCommand width, fromView_ok.2 ⟨b, (encode_widthOf ..).trans encoded, rfl⟩, useDraw_eq]
  rfl

/-- Settles O37: the encoding raises, or before it the width check. -/
theorem fromCommandsRejectUnfitValues : Obligations.FromCommandsRejectUnfitValues := by
  refine ⟨fun s k rd w d width unfit => ?_, fun s rd w d bad => ?_⟩
  · have raised := (encode_widthOf none k w.toNat d s).trans (encK_of_not_fits unfit)
    rw [exec_fromCommand width, fromView_error.2 raised, finish_error_faulted]
    rfl
  · rw [exec, execFromNum, widthOperand_of_bad bad, finish_error_faulted]
    rfl

/-- Settles O38: the register passes the length check. -/
theorem asCommandsGiveTheValue : Obligations.AsCommandsGiveTheValue := by
  intro s k rs length
  refine ⟨_, decK_decodesTo (off := s.i32Offset) (raw := s.nextDraw) length, ?_⟩
  rw [exec_asCommand, asView_ok.2 ⟨checkLen_ok.2 ((admitsWidth_iff k _).2 length), rfl⟩, useDraw_eq]
  rfl

/-- Settles O39: a register's length fits the information word, since CAP_BITS does. -/
theorem asCommandsRejectOtherLengths : Obligations.AsCommandsRejectOtherLengths := by
  intro s k rs inv other
  have fits : (s.readBS rs).length < 2 ^ 32 := by
    obtain ⟨-, capBound, -, -⟩ := inv.params
    have cap := inv.bsCap rs
    omega
  have refused : k.admitsWidth (s.readBS rs).length = false :=
    Bool.eq_false_iff.2 fun admitted => other ((admitsWidth_iff k _).1 admitted)
  rw [exec_asCommand, asView_error.2 (checkLen_error.2 ⟨refused, rfl⟩), finish_error_faulted, Raise.info,
    pairWord_eq_infoPair fits, fixedWidth_getD]
  rfl

/-! ### W_ -/

/-- Settles O40: the digits have the width the capacity was checked for. -/
theorem writeCommandsAppendTheDigits : Obligations.WriteCommandsAppendTheDigits := by
  intro s k w d width fits room
  obtain ⟨b, encoded, digits⟩ := encK_of_fits (fe := none) (raw := s.nextDraw) fits
  have encodes := (encode_widthOf none k w.toNat d s).trans encoded
  have capacity : s.wBuf.length + b.length ≤ s.params.capBits := by
    rwa [encode_length encodes, widthOf_widthOf]
  refine ⟨b, digits, ?_⟩
  rw [exec_writeCommand width, writeView_ok.2 ⟨b, encodes, capacity, rfl⟩, useDraw_eq]
  rfl

/-- Settles O41: the width, the range and the capacity are checked in this order. -/
theorem writeCommandsRejectInOrder : Obligations.WriteCommandsRejectInOrder := by
  refine ⟨fun s w d bad => ?_, fun s k w d width unfit => ?_, fun s k w d width fits full => ?_,
    fun s rs full => ?_⟩
  · rw [exec, execWNum, widthOperand_of_bad bad, finish_error_faulted]
    rfl
  · have raised := (encode_widthOf none k w.toNat d s).trans (encK_of_not_fits unfit)
    rw [exec_writeCommand width, writeView_error.2 (.inl raised), finish_error_faulted]
    rfl
  · obtain ⟨b, encoded, -⟩ := encK_of_fits (fe := none) (raw := s.nextDraw) fits
    have encodes := (encode_widthOf none k w.toNat d s).trans encoded
    have length : b.length = widthOf k w.toNat := by rw [encode_length encodes, widthOf_widthOf]
    rw [← length] at full ⊢
    rw [exec_writeCommand width, writeView_error.2 (.inr ⟨b, encodes, full, rfl⟩), finish_error_faulted]
    rfl
  · rw [exec, execWBits, append_error.2 ⟨full, rfl⟩, finish_error_faulted]
    rfl

/-- Settles O42: W_BITS through Append, W_FLUSH by its definition. -/
theorem wBitsAppendsAndWFlushExtracts : Obligations.WBitsAppendsAndWFlushExtracts := by
  refine ⟨fun s rs room => ?_, fun s rd => rfl⟩
  rw [exec, execWBits, append_ok.2 ⟨room, rfl⟩]
  rfl

/-! ### R_ -/

/-- Settles O43: the bits read are a slice of the view's length. -/
theorem readCommandsConsumeTheirWidth : Obligations.ReadCommandsConsumeTheirWidth := by
  intro s k w width room
  have length : LengthOk k (slice s.rSrc s.rPos (widthOf k w.toNat)).length := by
    rw [slice_length_of_le room, ← admitsWidth_iff]
    exact admitsWidth_widthOf width
  refine ⟨_, decK_decodesTo (off := s.i32Offset) (raw := s.nextDraw) length, ?_⟩
  rw [exec_readCommand width, readView_ok.2 ⟨by omega, rfl⟩, drawsOf_eq_drawCount]
  rfl

/-- Settles O44: ReadBits raises for every reader command alike. -/
theorem readsPastTheEndRaiseReadOverrun : Obligations.ReadsPastTheEndRaiseReadOverrun := by
  refine ⟨fun s k w width past => ?_, fun s w bad => ?_, fun s rd n past => ⟨?_, ?_⟩⟩
  · have asked : widthOf k w.toNat < 2 ^ 32 := (widthOf_le width).trans_lt (by decide)
    rw [exec_readCommand width, readView_error.2 (readBits_error.2 ⟨past, rfl⟩), finish_error_faulted,
      readOverrun_info asked]
    rfl
  · rw [exec, execRNum, widthOperand_of_bad bad, finish_error_faulted]
    rfl
  · rw [exec, execRBits, readBits_error.2 ⟨past, rfl⟩, finish_error_faulted, readOverrun_info_clipped]
    rfl
  · rw [exec, execRSkip, readBits_error.2 ⟨past, rfl⟩, finish_error_faulted, readOverrun_info_clipped]
    rfl

/-- Settles O45: the reads through ReadBits, R_LOAD by its definition. -/
theorem rBitsRSkipAndRLoadMoveTheCursor : Obligations.RBitsRSkipAndRLoadMoveTheCursor := by
  refine ⟨fun s rd n room => ⟨?_, ?_⟩, fun s rs => rfl⟩
  · rw [exec, execRBits, readBits_ok.2 ⟨room, rfl, rfl⟩]
    rfl
  · rw [exec, execRSkip, readBits_ok.2 ⟨room, rfl, rfl⟩]
    rfl

end Sys2Proof.Machine
end

section
/-!
PROOFS. The schema commands (44_frame_schema.md R200 to R203) and the packed descriptor (10_state.md R38).
-/

namespace Sys2Proof.Machine

open Sys2Proof.Spec

/-! ### The descriptor a data word packs -/

section Packed

variable {d : DataWord} {f : Descriptor} {k : Kind}

theorem kindOfCode_of_kindNumber {c : BitVec 3} (h : kindNumber k = c.toNat) :
    kindOfCode c = some k := by
  rw [kindOfCode, ← h]
  cases k <;> rfl

theorem kindOfCode_of_le {c : BitVec 3} (h : 6 ≤ c.toNat) : kindOfCode c = none := by
  have fits := c.isLt
  unfold kindOfCode
  split
  case h_7 => rfl
  all_goals omega

theorem toNat_kindBits (d : DataWord) : (d.extractLsb' 8 3).toNat = d.toNat / 2 ^ 8 % 2 ^ 3 :=
  toNat_extractLsb'_eq_div d 8 3

theorem toNat_widthBits (d : DataWord) : (d.extractLsb' 0 7).toNat = d.toNat % 2 ^ 7 := by
  rw [toNat_extractLsb'_eq_div, pow_zero, Nat.div_one]

theorem toNat_versionBits (d : DataWord) : (d.extractLsb' 32 32).toNat = d.toNat / 2 ^ 32 := by
  rw [toNat_extractLsb'_eq_div]
  exact Nat.mod_eq_of_lt (by omega)

/-- A data word whose three fields are a well-formed descriptor's is accepted as it. -/
theorem descriptorOperand_of_packed (width : f.width.toNat = d.toNat % 2 ^ 7)
    (kind : kindNumber f.kind = d.toNat / 2 ^ 8 % 2 ^ 3) (ver : f.ver.toNat = d.toNat / 2 ^ 32)
    (wf : LengthOk f.kind f.width.toNat) : descriptorOperand d = .ok f := by
  have kindBits := kindOfCode_of_kindNumber (kind.trans (toNat_kindBits d).symm)
  have widthBits : d.extractLsb' 0 7 = f.width :=
    BitVec.eq_of_toNat_eq ((toNat_widthBits d).trans width.symm)
  have verBits : d.extractLsb' 32 32 = f.ver :=
    BitVec.eq_of_toNat_eq ((toNat_versionBits d).trans ver.symm)
  simp only [descriptorOperand, kindBits, widthBits, verBits, (admitsWidth_iff _ _).2 wf, if_true]

theorem descriptorOperand_of_bad (h : 6 ≤ d.toNat / 2 ^ 8 % 2 ^ 3 ∨
    ∃ k, kindNumber k = d.toNat / 2 ^ 8 % 2 ^ 3 ∧ ¬LengthOk k (d.toNat % 2 ^ 7)) :
    descriptorOperand d = .error .illegalOperand := by
  rw [← toNat_kindBits, ← toNat_widthBits] at h
  rcases h with noKind | ⟨k, kind, width⟩
  · simp only [descriptorOperand, kindOfCode_of_le noKind]
  · have refused := mt (admitsWidth_iff k _).1 width
    simp only [descriptorOperand, kindOfCode_of_kindNumber kind, if_neg refused]

end Packed

section FieldOperand

variable {s : State} {i : Imm}

theorem fieldOperand_of_lt (h : i.toNat < s.params.maxFields) : fieldOperand i s = .ok i.toNat :=
  fieldOperand_ok.2 ⟨h, rfl⟩

theorem fieldOperand_of_le (h : s.params.maxFields ≤ i.toNat) :
    fieldOperand i s = .error .illegalOperand :=
  fieldOperand_error.2 ⟨h, rfl⟩

/-- SCH_FD refuses a bad index and a bad descriptor alike. -/
theorem execSchFd_of_bad {d : DataWord}
    (h : s.params.maxFields ≤ i.toNat ∨ descriptorOperand d = .error .illegalOperand) :
    exec (.schFd i d) s = .next (faulted s (commandWord (.schFd i d)) .illegalOperand 0) := by
  rcases Nat.lt_or_ge i.toNat s.params.maxFields with index | index
  · have refused := h.resolve_left (Nat.not_le.2 index)
    simp only [exec, execSchFd, fieldOperand_of_lt index, refused, finish_error_faulted, Raise.cause,
      Raise.info]
  · simp only [exec, execSchFd, fieldOperand_of_le index, finish_error_faulted, Raise.cause, Raise.info]

end FieldOperand

/-- Settles O46: the index is accepted, and for SCH_FD the descriptor. -/
theorem schemaCommandsStoreAndRead : Obligations.SchemaCommandsStoreAndRead := by
  intro s i d f index
  refine ⟨fun width kind ver wf => ?_, ?_, ?_, ?_⟩
  · have agrees : LengthOk f.kind f.width.toNat := by
      rcases wf with ⟨num, range⟩ | ⟨fixed, equal⟩
      · exact (if_pos num).mpr range
      · exact (if_neg fixed).mpr equal
    rw [exec, execSchFd, fieldOperand_of_lt index, descriptorOperand_of_packed width kind ver agrees]
    rfl
  · rw [exec, execSchDef, fieldOperand_of_lt index]
    rfl
  · rw [exec, execFvWr, fieldOperand_of_lt index]
    rfl
  · rw [exec, execFvRd, fieldOperand_of_lt index]
    rfl

/-- Settles O47: the index check refuses for all four, the descriptor check for SCH_FD. -/
theorem schemaCommandsRejectBadOperands : Obligations.SchemaCommandsRejectBadOperands := by
  intro s i d
  refine ⟨fun bad => execSchFd_of_bad (.inr (descriptorOperand_of_bad bad)), fun above => ?_⟩
  refine ⟨execSchFd_of_bad (.inl above), ?_, ?_, ?_⟩
  · rw [exec, execSchDef, fieldOperand_of_le above, finish_error_faulted]
    rfl
  · rw [exec, execFvWr, fieldOperand_of_le above, finish_error_faulted]
    rfl
  · rw [exec, execFvRd, fieldOperand_of_le above, finish_error_faulted]
    rfl

end Sys2Proof.Machine
end

section
/-!
PROOFS. The frame encoder (45_frame_encoder.md R210, R211): the field loop as the concatenation of one piece a
field.
-/

namespace Sys2Proof.Machine

open Sys2Proof.Spec

/-! ### Widths and offsets -/

section Offsets

variable {s : State} {v : BitVec 32}

theorem present_iff (s : State) (v : BitVec 32) (i : Nat) : s.present v i = true ↔ Present s v i :=
  decide_eq_true_iff

theorem lengthOk_of_wf {f : Descriptor} (wf : f.wf = true) : LengthOk f.kind f.width.toNat :=
  (admitsWidth_iff _ _).1 wf

/-- A well-formed descriptor's width is the width its kind is encoded into. -/
theorem widthOf_of_wf {f : Descriptor} (wf : f.wf = true) :
    widthOf f.kind f.width.toNat = f.width.toNat := by
  have agrees := lengthOk_of_wf wf
  unfold LengthOk at agrees
  cases kind : f.kind <;> simp_all [widthOf]

theorem width_le_of_wf {f : Descriptor} (wf : f.wf = true) : f.width.toNat ≤ 64 := by
  have agrees := lengthOk_of_wf wf
  unfold LengthOk at agrees
  cases kind : f.kind <;> simp_all [widthOf]

theorem offsetOf_succ_of_present {i : Nat} (h : Present s v i) :
    offsetOf s v (i + 1) = offsetOf s v i + (s.descriptor i).width.toNat := if_pos h

theorem offsetOf_succ_of_absent {i : Nat} (h : ¬Present s v i) : offsetOf s v (i + 1) = offsetOf s v i :=
  if_neg h

theorem offsetOf_mono (s : State) (v : BitVec 32) {i j : Nat} (le : i ≤ j) :
    offsetOf s v i ≤ offsetOf s v j := by
  refine monotone_nat_of_le_succ (fun i => ?_) le
  by_cases h : Present s v i
  · rw [offsetOf_succ_of_present h]
    exact Nat.le_add_right _ _
  · rw [offsetOf_succ_of_absent h]

/-- Each field takes at most 64 bits. -/
theorem offsetOf_le (inv : s.Inv) (v : BitVec 32) (i : Nat) : offsetOf s v i ≤ 64 * i := by
  induction i with
  | zero => exact Nat.zero_le _
  | succ i ih =>
    have width := width_le_of_wf (inv.descriptors i)
    by_cases h : Present s v i
    · rw [offsetOf_succ_of_present h]
      omega
    · rw [offsetOf_succ_of_absent h]
      omega

/-- A frame fits: CAP_BITS has room for the header and 64 bits a field (00_scope.md R7). -/
theorem payloadLength_le (inv : s.Inv) (v : BitVec 32) : 64 + payloadLength s v ≤ s.params.capBits := by
  obtain ⟨capacity, -, -, -⟩ := inv.params
  have fields := inv.nf
  have payload : payloadLength s v ≤ 64 * s.schNf := offsetOf_le inv v s.schNf
  omega

theorem payloadLength_lt (inv : s.Inv) (v : BitVec 32) : payloadLength s v < 2 ^ 32 := by
  obtain ⟨-, capBound, -, -⟩ := inv.params
  have fits := payloadLength_le inv v
  omega

end Offsets

/-! ### The pieces of a payload -/

/-- How many draws the present fields before field `i` use (assumption log 4). -/
def drawsBefore (s : State) (v : BitVec 32) : Nat → Nat
  | 0 => 0
  | i + 1 =>
    if s.present v i then drawsBefore s v i + drawsOf (s.descriptor i).kind else drawsBefore s v i

/-- The state a frame loop is in at field `i`, as far as the draws go. -/
def atField (s : State) (v : BitVec 32) (i : Nat) : State :=
  { s with nanDraws := s.nanDraws + drawsBefore s v i }

/-- What field `i` adds to the payload: its digits, nothing when it is absent. -/
def pieceOf (s : State) (v : BitVec 32) (i : Nat) : BitString :=
  if s.present v i then
    ((atField s v i).encode (some i) (s.descriptor i).kind (s.descriptor i).width.toNat
      (s.fieldValue i)).toOption.getD []
  else []

/-- The payload of a frame. -/
def payloadOf (s : State) (v : BitVec 32) : BitString := (List.range s.schNf).flatMap (pieceOf s v)

section Pieces

variable {s : State} {v : BitVec 32} {i : Nat}

theorem pieceOf_of_absent (h : ¬Present s v i) : pieceOf s v i = [] :=
  if_neg fun present => h ((present_iff s v i).1 present)

theorem pieceOf_of_encode {b : BitString} (h : Present s v i)
    (encoded : (atField s v i).encode (some i) (s.descriptor i).kind (s.descriptor i).width.toNat
      (s.fieldValue i) = .ok b) : pieceOf s v i = b := by
  rw [pieceOf, if_pos ((present_iff s v i).2 h), encoded]
  rfl

/-- A present field that fits encodes to its piece. -/
theorem encode_piece (h : Present s v i) (fits : FieldFits s i) :
    (atField s v i).encode (some i) (s.descriptor i).kind (s.descriptor i).width.toNat
      (s.fieldValue i) = .ok (pieceOf s v i) := by
  obtain ⟨b, encoded, -⟩ := encK_of_fits (fe := some i) (raw := (atField s v i).nextDraw) fits
  rw [pieceOf_of_encode h encoded]
  exact encoded

theorem fieldBits_piece (h : Present s v i) (fits : FieldFits s i) : FieldBits s i (pieceOf s v i) := by
  obtain ⟨b, encoded, digits⟩ := encK_of_fits (fe := some i) (raw := (atField s v i).nextDraw) fits
  rw [pieceOf_of_encode h encoded]
  exact digits

/-- A piece takes on the wire what `offsetOf` counts. -/
theorem offsetOf_succ (wf : (s.descriptor i).wf = true) (fits : Present s v i → FieldFits s i) :
    offsetOf s v (i + 1) = offsetOf s v i + (pieceOf s v i).length := by
  by_cases h : Present s v i
  · rw [offsetOf_succ_of_present h, encode_length (encode_piece h (fits h)), widthOf_of_wf wf]
  · rw [offsetOf_succ_of_absent h, pieceOf_of_absent h, List.length_nil, Nat.add_zero]

theorem length_pieces (inv : s.Inv) {n : Nat} (fits : ∀ i, i < n → Present s v i → FieldFits s i) :
    ((List.range n).flatMap (pieceOf s v)).length = offsetOf s v n := by
  induction n with
  | zero => rfl
  | succ n ih =>
    rw [List.range_succ, List.flatMap_append, List.length_append,
      ih fun i hi => fits i (Nat.lt_succ_of_lt hi), List.flatMap_singleton,
      offsetOf_succ (inv.descriptors n) (fits n (Nat.lt_succ_self n))]

/-! ### The field loop -/

@[simp] theorem atField_descriptor (s : State) (v : BitVec 32) (i j : Nat) :
    (atField s v i).descriptor j = s.descriptor j := rfl

@[simp] theorem atField_fieldValue (s : State) (v : BitVec 32) (i j : Nat) :
    (atField s v i).fieldValue j = s.fieldValue j := rfl

@[simp] theorem atField_present (s : State) (v w : BitVec 32) (i j : Nat) :
    (atField s v i).present w j = s.present w j := rfl

theorem atField_zero (s : State) (v : BitVec 32) : atField s v 0 = s := rfl

/-- A present field uses its draw. -/
theorem atField_succ_of_present (h : Present s v i) :
    atField s v (i + 1) = (atField s v i).useDraw (s.descriptor i).kind := by
  rw [atField, drawsBefore, if_pos ((present_iff s v i).2 h), ← Nat.add_assoc]
  rfl

theorem atField_succ_of_absent (h : ¬Present s v i) : atField s v (i + 1) = atField s v i := by
  rw [atField, drawsBefore, if_neg fun present => h ((present_iff s v i).1 present)]
  rfl

theorem encodeField_of_fits (b : BitString) (fits : Present s v i → FieldFits s i) :
    encodeField v i b (atField s v i) = .ok (b ++ pieceOf s v i, atField s v (i + 1)) := by
  by_cases h : Present s v i
  · simp only [encodeField, atField_present, (present_iff s v i).2 h, if_true, atField_descriptor,
      atField_fieldValue, encode_piece h (fits h), atField_succ_of_present h]
  · simp only [encodeField, atField_present, mt (present_iff s v i).1 h, Bool.false_eq_true, if_false,
      pieceOf_of_absent h, List.append_nil, atField_succ_of_absent h]

theorem encodeField_of_unfit (b : BitString) (h : Present s v i) (unfit : ¬FieldFits s i) :
    encodeField v i b (atField s v i) = .error (.rangeError (some i)
      (rangeWidth (s.descriptor i).kind (s.descriptor i).width.toNat)) := by
  have raised : (atField s v i).encode (some i) (s.descriptor i).kind (s.descriptor i).width.toNat
      (s.fieldValue i) = .error (.rangeError (some i) _) := encK_of_not_fits unfit
  simp only [encodeField, atField_present, (present_iff s v i).2 h, if_true, atField_descriptor,
    atField_fieldValue, raised]

/-- While the fields fit, the loop adds their pieces in declaration order. -/
theorem encodeFields_of_fits (n : Nat) (b : BitString)
    (fits : ∀ j, i ≤ j → j < i + n → Present s v j → FieldFits s j) :
    encodeFields v n i b (atField s v i) =
      .ok (b ++ (List.range' i n).flatMap (pieceOf s v), atField s v (i + n)) := by
  induction n generalizing i b with
  | zero => rw [encodeFields, List.range'_zero, List.flatMap_nil, List.append_nil, Nat.add_zero]
  | succ n ih =>
    have rest := ih (i := i + 1) (b ++ pieceOf s v i) fun j low high => fits j (by omega) (by omega)
    simp only [encodeFields, encodeField_of_fits b (fits i le_rfl (by omega)), rest, List.range'_succ,
      List.flatMap_cons, List.append_assoc, Nat.add_assoc, Nat.add_comm 1]

/-- The loop ends at the first present field that does not fit. -/
theorem encodeFields_of_unfit {j n : Nat} (b : BitString) (low : i ≤ j) (high : j < i + n)
    (fits : ∀ m, i ≤ m → m < j → Present s v m → FieldFits s m) (h : Present s v j)
    (unfit : ¬FieldFits s j) :
    encodeFields v n i b (atField s v i) = .error (.rangeError (some j)
      (rangeWidth (s.descriptor j).kind (s.descriptor j).width.toNat)) := by
  induction n generalizing i b with
  | zero => omega
  | succ n ih =>
    rcases Nat.eq_or_lt_of_le low with rfl | later
    · simp only [encodeFields, encodeField_of_unfit b h unfit]
    · have rest := ih (i := i + 1) (b ++ pieceOf s v i) later (by omega)
        fun m low' high' => fits m (by omega) high'
      simp only [encodeFields, encodeField_of_fits b (fits i le_rfl later), rest]

end Pieces

/-! ### FE_ENC -/

section FeEnc

variable {s : State} {rd : BsReg} {v : DataWord}

theorem length_payloadOf {w : BitVec 32} (inv : s.Inv)
    (fits : ∀ i, i < s.schNf → Present s w i → FieldFits s i) :
    (payloadOf s w).length = payloadLength s w := length_pieces inv fits

theorem length_frameOf (tag : BitVec 32) (payload : BitString) :
    (frameOf tag payload).length = 64 + payload.length := by
  simp only [frameOf, List.length_append, bitsOf_length]

/-- FE_ENC's next state when every present field fits. -/
theorem exec_feEnc_of_fits (rd : BsReg) (inv : s.Inv)
    (fits : ∀ i, i < s.schNf → Present s (low32 v) i → FieldFits s i) :
    exec (.feEnc rd v) s = .next (answered
      { withBS s rd (frameOf s.schTag (payloadOf s (low32 v))) with
        res := BitVec.ofNat 64 (payloadOf s (low32 v)).length
        nanDraws := s.nanDraws + drawsBefore s (low32 v) s.schNf } []) := by
  have length := length_payloadOf inv fits
  have small : ¬(payloadOf s (low32 v)).length > 2 ^ 32 - 1 := by
    have := payloadLength_lt inv (low32 v)
    omega
  have room : ¬(frameOf s.schTag (payloadOf s (low32 v))).length > s.params.capBits := by
    have := payloadLength_le inv (low32 v)
    rw [length_frameOf]
    omega
  have loop := encodeFields_of_fits (i := 0) s.schNf []
    fun j _ high => fits j (high.trans_eq (Nat.zero_add _))
  rw [atField_zero, List.nil_append, ← List.range_eq_range', Nat.zero_add] at loop
  change encodeFields (lowWord v) s.schNf 0 [] s = .ok (payloadOf s (low32 v), _) at loop
  rw [exec, execFeEnc, loop]
  simp only [if_neg small, if_neg room]
  rfl

end FeEnc

/-- Settles O48: the pieces are `pieceOf`, each of the width `offsetOf` counts. -/
theorem feEncBuildsTheFrame : Obligations.FeEncBuildsTheFrame := by
  intro s rd v inv fits
  exact ⟨pieceOf s (low32 v), payloadOf s (low32 v), drawsBefore s (low32 v) s.schNf,
    fun i hi => ⟨fun h => fieldBits_piece h (fits i hi h), pieceOf_of_absent⟩, rfl,
    length_payloadOf inv fits, exec_feEnc_of_fits rd inv fits⟩

theorem rangeWidth_lt (k : Kind) (w : BitVec 7) : rangeWidth k w.toNat < 2 ^ 8 := by
  have := w.isLt
  cases k <;> simp only [rangeWidth] <;> omega

/-- Settles O49: the loop ends at the field, whose index and width fit the information word. -/
theorem feEncNamesTheFirstUnfitField : Obligations.FeEncNamesTheFirstUnfitField := by
  intro s rd v i inv index fits h unfit
  have small : i < 2 ^ 8 := by
    obtain ⟨-, -, -, fields⟩ := inv.params
    have := inv.nf
    omega
  have loop := encodeFields_of_unfit (i := 0) (n := s.schNf) [] (Nat.zero_le i) (by omega)
    (fun m _ high => fits m high) h unfit
  rw [atField_zero] at loop
  rw [exec, execFeEnc, lowWord_eq_low32, loop, finish_error_faulted,
    rangeError_some_info small (rangeWidth_lt _ _)]
  rfl

end Sys2Proof.Machine
end

section
/-!
PROOFS. The frame decoder's FD_BODY (46_frame_decoder.md R221 to R223): the field loop as a walk whose state at
each field is written out.
-/

namespace Sys2Proof.Machine

open Sys2Proof.Spec

/-! ### The walk -/

/-- What FD_BODY gives field `i`: the value read at its place, or its default. -/
def fieldResult (s : State) (v : BitVec 32) (i : Nat) : DataWord :=
  if s.present v i then
    (atField s v i).decode (s.descriptor i).kind
      (slice s.rSrc (s.rPos + offsetOf s v i) (s.descriptor i).width.toNat)
  else s.defaultValue i

/-- The field values when the walk has passed the first `n` fields. -/
def fieldsWalked (s : State) (v : BitVec 32) : Nat → List DataWord
  | 0 => s.fv
  | n + 1 => (fieldsWalked s v n).set n (fieldResult s v n)

/-- The state of the walk at field `i`. -/
def walkedTo (s : State) (v : BitVec 32) (i : Nat) : State :=
  { atField s v i with rPos := s.rPos + offsetOf s v i, fv := fieldsWalked s v i }

section Walk

variable {s : State} {v : BitVec 32} {i : Nat}

theorem walkedTo_zero (s : State) (v : BitVec 32) : walkedTo s v 0 = s := rfl

@[simp] theorem walkedTo_descriptor (s : State) (v : BitVec 32) (i j : Nat) :
    (walkedTo s v i).descriptor j = s.descriptor j := rfl

@[simp] theorem walkedTo_defaultValue (s : State) (v : BitVec 32) (i j : Nat) :
    (walkedTo s v i).defaultValue j = s.defaultValue j := rfl

@[simp] theorem walkedTo_present (s : State) (v w : BitVec 32) (i j : Nat) :
    (walkedTo s v i).present w j = s.present w j := rfl

theorem fieldResult_of_present (h : Present s v i) :
    fieldResult s v i = (atField s v i).decode (s.descriptor i).kind
      (slice s.rSrc (s.rPos + offsetOf s v i) (s.descriptor i).width.toNat) :=
  if_pos ((present_iff s v i).2 h)

theorem fieldResult_of_absent (h : ¬Present s v i) : fieldResult s v i = s.defaultValue i :=
  if_neg fun present => h ((present_iff s v i).1 present)

theorem walkedTo_succ_of_present (h : Present s v i) :
    walkedTo s v (i + 1) =
      { (walkedTo s v i).writeFieldValue i (fieldResult s v i) with
        rPos := s.rPos + offsetOf s v i + (s.descriptor i).width.toNat }.useDraw (s.descriptor i).kind := by
  rw [walkedTo, atField_succ_of_present h, offsetOf_succ_of_present h, ← Nat.add_assoc]
  rfl

theorem walkedTo_succ_of_absent (h : ¬Present s v i) :
    walkedTo s v (i + 1) = (walkedTo s v i).writeFieldValue i (s.defaultValue i) := by
  rw [walkedTo, atField_succ_of_absent h, offsetOf_succ_of_absent h, ← fieldResult_of_absent h]
  rfl

/-- A field whose bits are there, or that takes none, is walked over. -/
theorem decodeField_of_room (room : s.rPos + offsetOf s v (i + 1) ≤ s.rSrc.length) :
    decodeField v i (offsetOf s v i) (walkedTo s v i) =
      .ok (offsetOf s v (i + 1), walkedTo s v (i + 1)) := by
  by_cases h : Present s v i
  · rw [offsetOf_succ_of_present h] at room
    have left : (s.descriptor i).width.toNat ≤ s.rSrc.length - (s.rPos + offsetOf s v i) := by omega
    have read : (walkedTo s v i).readBits (s.descriptor i).width.toNat = .ok
        (slice s.rSrc (s.rPos + offsetOf s v i) (s.descriptor i).width.toNat,
          { walkedTo s v i with rPos := s.rPos + offsetOf s v i + (s.descriptor i).width.toNat }) :=
      readBits_ok.2 ⟨left, rfl, rfl⟩
    simp only [decodeField, walkedTo_present, (present_iff s v i).2 h, if_true, walkedTo_descriptor, read,
      offsetOf_succ_of_present h, walkedTo_succ_of_present h, fieldResult_of_present h]
    rfl
  · simp only [decodeField, walkedTo_present, mt (present_iff s v i).1 h, Bool.false_eq_true, if_false,
      walkedTo_defaultValue, offsetOf_succ_of_absent h, walkedTo_succ_of_absent h]

/-- A field that starts inside the source and ends past it raises ReadOverrun. -/
theorem decodeField_of_past (h : Present s v i)
    (past : s.rSrc.length < s.rPos + offsetOf s v i + (s.descriptor i).width.toNat)
    (inside : s.rPos + offsetOf s v i ≤ s.rSrc.length) :
    decodeField v i (offsetOf s v i) (walkedTo s v i) = .error (.readOverrun
      (s.rSrc.length - (s.rPos + offsetOf s v i)) (s.descriptor i).width.toNat) := by
  have left : s.rSrc.length - (s.rPos + offsetOf s v i) < (s.descriptor i).width.toNat := by omega
  have read : (walkedTo s v i).readBits (s.descriptor i).width.toNat = .error (.readOverrun
      (s.rSrc.length - (s.rPos + offsetOf s v i)) (s.descriptor i).width.toNat) :=
    readBits_error.2 ⟨left, rfl⟩
  simp only [decodeField, walkedTo_present, (present_iff s v i).2 h, if_true, walkedTo_descriptor, read]

theorem decodeFields_of_room {n : Nat} (room : s.rPos + offsetOf s v (i + n) ≤ s.rSrc.length) :
    decodeFields v n i (offsetOf s v i) (walkedTo s v i) =
      .ok (offsetOf s v (i + n), walkedTo s v (i + n)) := by
  induction n generalizing i with
  | zero => rfl
  | succ n ih =>
    have next : i + 1 + n = i + (n + 1) := by omega
    have grows := offsetOf_mono s v (show i + 1 ≤ i + (n + 1) by omega)
    rw [decodeFields, decodeField_of_room (by omega)]
    simp only [ih (i := i + 1) (next ▸ room), next]

/-- The loop ends at the first field past the end of the source. -/
theorem decodeFields_of_past {j n : Nat} (low : i ≤ j) (high : j < i + n) (h : Present s v j)
    (inside : s.rPos + offsetOf s v j ≤ s.rSrc.length)
    (past : s.rSrc.length < s.rPos + offsetOf s v j + (s.descriptor j).width.toNat) :
    decodeFields v n i (offsetOf s v i) (walkedTo s v i) = .error (.readOverrun
      (s.rSrc.length - (s.rPos + offsetOf s v j)) (s.descriptor j).width.toNat) := by
  induction n generalizing i with
  | zero => omega
  | succ n ih =>
    rcases Nat.eq_or_lt_of_le low with rfl | later
    · simp only [decodeFields, decodeField_of_past h past inside]
    · have grows := offsetOf_mono s v (show i + 1 ≤ j from later)
      rw [decodeFields, decodeField_of_room (by omega)]
      exact ih later (by omega)

/-! ### The field values after the walk -/

theorem length_fieldsWalked (s : State) (v : BitVec 32) (n : Nat) :
    (fieldsWalked s v n).length = s.fv.length := by
  induction n with
  | zero => rfl
  | succ n ih => exact List.length_set.trans ih

/-- Each field walked over holds its result, the others what they held. -/
theorem fieldsWalked_getD (s : State) (v : BitVec 32) {n : Nat} (count : n ≤ s.fv.length) (i : Nat) :
    (fieldsWalked s v n).getD i 0 = if i < n then fieldResult s v i else s.fieldValue i := by
  induction n with
  | zero => rfl
  | succ n ih =>
    have inList : n < (fieldsWalked s v n).length := by rw [length_fieldsWalked]; exact count
    rcases eq_or_ne i n with rfl | other
    · rw [if_pos (Nat.lt_succ_self i)]
      simp [fieldsWalked, inList]
    · have same : (fieldsWalked s v (n + 1)).getD i 0 = (fieldsWalked s v n).getD i 0 := by
        simp [fieldsWalked, List.getElem?_set_ne other.symm]
      have index : i < n + 1 ↔ i < n := by omega
      simp only [same, ih (by omega), index]

/-- What a present field holds after the walk is a decoding of its digits. -/
theorem fieldResult_decodesTo (wf : (s.descriptor i).wf = true) (h : Present s v i)
    (room : s.rPos + offsetOf s v (i + 1) ≤ s.rSrc.length) :
    DecodesTo (s.descriptor i).kind s.i32Offset.toNat
      ((s.rSrc.drop (s.rPos + offsetOf s v i)).take (s.descriptor i).width.toNat)
      (fieldResult s v i) := by
  rw [offsetOf_succ_of_present h] at room
  rw [fieldResult_of_present h]
  refine decK_decodesTo ?_
  rw [show List.take _ (List.drop _ _) = slice s.rSrc _ _ from rfl, slice_length_of_le (by omega)]
  exact lengthOk_of_wf wf

end Walk

/-! ### The length policy and FD_BODY -/

/-- The flags of STATUS after a walk of `c` bits (46_frame_decoder.md R223). -/
def flagsAfter (s : State) (c : Nat) : Status :=
  { s.status with
    underrun := s.status.underrun || decide (c < s.fdLen.toNat)
    overrun := s.status.overrun || decide (s.fdLen.toNat < c) }

section Policy

variable {s : State} {c : Nat}

theorem flagsAfter_of_lt (h : c < s.fdLen.toNat) : flagsAfter s c = s.status.setUnder := by
  simp [flagsAfter, Status.setUnder, h, Nat.not_lt_of_lt h]

theorem flagsAfter_of_gt (h : s.fdLen.toNat < c) : flagsAfter s c = s.status.setOver := by
  simp [flagsAfter, Status.setOver, h, Nat.not_lt_of_lt h]

theorem flagsAfter_of_eq (h : c = s.fdLen.toNat) : flagsAfter s c = s.status := by
  simp [flagsAfter, h]

theorem lenPolicy_of_permissive (h : s.lenpol = .permissive) :
    lenPolicy c s = .ok { s with status := flagsAfter s c } := by
  have policy : lenPolicy c s = .ok (if c < s.fdLen.toNat then s.flagUnder
      else if c > s.fdLen.toNat then s.flagOver else s) := by rw [lenPolicy, h]
  rw [policy]
  rcases Nat.lt_trichotomy c s.fdLen.toNat with lt | eq | gt
  · rw [if_pos lt, flagsAfter_of_lt lt, State.flagUnder]
  · rw [if_neg eq.not_lt, if_neg eq.not_gt, flagsAfter_of_eq eq]
  · rw [if_neg (Nat.not_lt_of_lt gt), if_pos gt, flagsAfter_of_gt gt, State.flagOver]

theorem lenPolicy_of_exact (h : s.lenpol = .exact) (equal : c = s.fdLen.toNat) :
    lenPolicy c s = .ok { s with status := flagsAfter s c } := by
  have policy : lenPolicy c s = .ok s := by simp only [lenPolicy, h, if_neg (not_not.2 equal)]
  rw [policy, flagsAfter_of_eq equal]

/-- FRAMED passes over the bits the walk left. -/
theorem lenPolicy_of_framed (h : s.lenpol = .framed) (le : c ≤ s.fdLen.toNat)
    (room : s.fdLen.toNat - c ≤ s.rSrc.length - s.rPos) :
    lenPolicy c s = .ok { s with
      rPos := s.rPos + (s.fdLen.toNat - c)
      status := flagsAfter s c } := by
  have notAbove : ¬c > s.fdLen.toNat := Nat.not_lt.2 le
  rcases Nat.eq_or_lt_of_le le with equal | lt
  · have policy : lenPolicy c s = .ok s := by
      simp only [lenPolicy, h, if_neg notAbove, if_neg equal.not_lt]
    rw [policy, flagsAfter_of_eq equal, equal, Nat.sub_self, Nat.add_zero]
  · have policy : lenPolicy c s =
        .ok { s with rPos := s.rPos + (s.fdLen.toNat - c) }.flagUnder := by
      unfold lenPolicy
      split
      case h_3 => simp only [if_neg notAbove, if_pos lt, readBits_ok.2 ⟨room, rfl, rfl⟩]
      all_goals simp_all
    rw [policy, flagsAfter_of_lt lt, State.flagUnder]

theorem lenPolicy_of_inconsistent (h : s.lenpol = .exact ∧ c ≠ s.fdLen.toNat ∨
    s.lenpol = .framed ∧ s.fdLen.toNat < c) :
    lenPolicy c s = .error (.frameConsistency s.fdLen.toNat c) := by
  rcases h with ⟨exact, other⟩ | ⟨framed, above⟩
  · simp only [lenPolicy, exact, if_pos other]
  · simp only [lenPolicy, framed, if_pos (show c > s.fdLen.toNat from above)]

theorem lenPolicy_of_truncated (h : s.lenpol = .framed) (lt : c < s.fdLen.toNat)
    (past : s.rSrc.length - s.rPos < s.fdLen.toNat - c) :
    lenPolicy c s = .error (.readOverrun (s.rSrc.length - s.rPos) (s.fdLen.toNat - c)) := by
  simp only [lenPolicy, h, if_neg (show ¬c > s.fdLen.toNat from Nat.not_lt_of_lt lt), if_pos lt,
    readBits_error.2 ⟨past, rfl⟩]

end Policy

section Body

variable {s : State} {v : DataWord}

/-- LENPOL admits a walk of `c` bits, and the cursor then stands `n` bits past the payload's start
(46_frame_decoder.md R223). -/
def PolicyAdmits (s : State) (c n : Nat) : Prop :=
  s.lenpol = .permissive ∧ n = c ∨
  s.lenpol = .exact ∧ c = s.fdLen.toNat ∧ n = c ∨
  s.lenpol = .framed ∧ c ≤ s.fdLen.toNat ∧ s.rPos + s.fdLen.toNat ≤ s.rSrc.length ∧ n = s.fdLen.toNat

/-- The policy after the whole walk, from the state before it. -/
theorem lenPolicy_walkedTo {w : BitVec 32} {n : Nat} (admits : PolicyAdmits s (payloadLength s w) n) :
    lenPolicy (payloadLength s w) (walkedTo s w s.schNf) = .ok { walkedTo s w s.schNf with
      rPos := s.rPos + n
      status := flagsAfter s (payloadLength s w) } := by
  rcases admits with ⟨permissive, rfl⟩ | ⟨exact, equal, rfl⟩ | ⟨framed, le, room, rfl⟩
  · exact lenPolicy_of_permissive (s := walkedTo s w s.schNf) permissive
  · exact lenPolicy_of_exact (s := walkedTo s w s.schNf) exact equal
  · have moved : s.rPos + s.fdLen.toNat =
        s.rPos + payloadLength s w + (s.fdLen.toNat - payloadLength s w) := by omega
    rw [moved]
    refine lenPolicy_of_framed (s := walkedTo s w s.schNf) framed le ?_
    change s.fdLen.toNat - payloadLength s w ≤ s.rSrc.length - (s.rPos + payloadLength s w)
    omega

theorem decodeFields_whole {w : BitVec 32} (room : s.rPos + payloadLength s w ≤ s.rSrc.length) :
    decodeFields w s.schNf 0 0 s = .ok (payloadLength s w, walkedTo s w s.schNf) := by
  have loop := decodeFields_of_room (i := 0) (n := s.schNf) (by rwa [Nat.zero_add])
  rwa [Nat.zero_add] at loop

/-- FD_BODY's next state when the walk and the policy succeed. -/
theorem exec_fdBody_of_admits {n : Nat} (valid : s.fdHvalid = true)
    (room : s.rPos + payloadLength s (low32 v) ≤ s.rSrc.length)
    (admits : PolicyAdmits s (payloadLength s (low32 v)) n) :
    exec (.fdBody v) s = .next (answered
      { s with
        fv := fieldsWalked s (low32 v) s.schNf
        rPos := s.rPos + n
        status := flagsAfter s (payloadLength s (low32 v))
        fdConsumed := BitVec.ofNat 32 (payloadLength s (low32 v))
        fdHvalid := false
        res := BitVec.ofNat 64 (payloadLength s (low32 v))
        nanDraws := s.nanDraws + drawsBefore s (low32 v) s.schNf } []) := by
  rw [exec, execFdBody, if_neg (by simp [valid]), lowWord_eq_low32, decodeFields_whole room]
  simp only [lenPolicy_walkedTo admits]
  rfl

end Body

/-- Settles O51: the field values are those of the walk. -/
theorem fdBodyDecodesTheFields : Obligations.FdBodyDecodesTheFields := by
  rintro s v c n inv valid rfl room admits
  refine ⟨fieldsWalked s (low32 v) s.schNf, drawsBefore s (low32 v) s.schNf,
    exec_fdBody_of_admits valid room admits, length_fieldsWalked s _ _, fun i => ?_⟩
  have count : s.schNf ≤ s.fv.length := inv.fvCount ▸ inv.nf
  rw [fieldsWalked_getD s (low32 v) count i]
  refine ⟨fun lt h => ?_, fun lt h => ?_, fun ge => if_neg (Nat.not_lt.2 ge)⟩
  · have inside := offsetOf_mono s (low32 v) (show i + 1 ≤ s.schNf from lt)
    rw [if_pos lt]
    exact fieldResult_decodesTo (inv.descriptors i) h ((Nat.add_le_add_left inside _).trans room)
  · rw [if_pos lt, fieldResult_of_absent h]

/-- Settles O52: the latch, the walk and the policy are checked in this order. -/
theorem fdBodyRaisesItsFaultsInOrder : Obligations.FdBodyRaisesItsFaultsInOrder := by
  refine ⟨fun s v invalid => ?_, fun s v i valid index h inside past => ?_, ?_⟩
  · rw [exec, execFdBody, if_pos invalid, finish_error_faulted]
    rfl
  · have small : (s.descriptor i).width.toNat < 2 ^ 32 := by omega
    have loop := decodeFields_of_past (i := 0) (n := s.schNf) (Nat.zero_le i) (by omega) h inside past
    rw [walkedTo_zero] at loop
    change decodeFields (low32 v) s.schNf 0 0 s = _ at loop
    rw [exec, execFdBody, if_neg (by simp [valid]), lowWord_eq_low32, loop, finish_error_faulted,
      readOverrun_info small]
    rfl
  · rintro s v c inv valid rfl room
    refine ⟨fun inconsistent => ?_, fun ⟨framed, lt, past⟩ => ?_⟩
    · have refused := lenPolicy_of_inconsistent (s := walkedTo s (low32 v) s.schNf) inconsistent
      rw [exec, execFdBody, if_neg (by simp [valid]), lowWord_eq_low32, decodeFields_whole room]
      simp only [refused]
      rw [finish_error_faulted, Raise.info, pairWord_eq_infoPair (payloadLength_lt inv _)]
      rfl
    · have left : s.rSrc.length - (s.rPos + payloadLength s (low32 v)) <
          s.fdLen.toNat - payloadLength s (low32 v) := by omega
      have small : s.fdLen.toNat - payloadLength s (low32 v) < 2 ^ 32 := by omega
      have refused : lenPolicy (payloadLength s (low32 v)) (walkedTo s (low32 v) s.schNf) =
          .error (.readOverrun (s.rSrc.length - (s.rPos + payloadLength s (low32 v)))
            (s.fdLen.toNat - payloadLength s (low32 v))) :=
        lenPolicy_of_truncated (s := walkedTo s (low32 v) s.schNf) framed lt left
      rw [exec, execFdBody, if_neg (by simp [valid]), lowWord_eq_low32, decodeFields_whole room]
      simp only [refused]
      rw [finish_error_faulted, readOverrun_info small]
      rfl

end Sys2Proof.Machine
end

section
/-!
PROOFS. Frames that are encoded, loaded and decoded (46_frame_decoder.md R225; 44_frame_schema.md R205).
-/

namespace Sys2Proof.Machine

open Sys2Proof.Spec

/-! ### The pieces in the frame -/

theorem slice_append_past {a b : BitString} {p : Nat} (ha : a.length = p) (q n : Nat) :
    slice (a ++ b) (p + q) n = slice b q n := by
  rw [slice, slice, ← List.drop_drop, List.drop_left' ha]

theorem slice_middle {a b c : BitString} {p n : Nat} (ha : a.length = p) (hb : b.length = n) :
    slice (a ++ (b ++ c)) p n = b := by
  rw [slice, List.drop_left' ha, List.take_left' hb]

section Pieces

variable {s : State} {w : BitVec 32} {i : Nat}

/-- The payload, cut around field `i`. -/
theorem payloadOf_split (index : i < s.schNf) : ∃ rest,
    payloadOf s w = (List.range i).flatMap (pieceOf s w) ++ (pieceOf s w i ++ rest) := by
  obtain ⟨n, count⟩ : ∃ n, s.schNf = i + 1 + n := ⟨s.schNf - (i + 1), by omega⟩
  refine ⟨((List.range n).map (i + 1 + ·)).flatMap (pieceOf s w), ?_⟩
  rw [payloadOf, count, List.range_add, List.flatMap_append, List.range_succ, List.flatMap_append,
    List.flatMap_singleton, List.append_assoc]

/-- A present field's digits stand at its offset behind the header. -/
theorem slice_frameOf_piece (inv : s.Inv) (fits : ∀ i, i < s.schNf → Present s w i → FieldFits s i)
    (tag : BitVec 32) (index : i < s.schNf) (h : Present s w i) :
    slice (frameOf tag (payloadOf s w)) (64 + offsetOf s w i) (s.descriptor i).width.toNat =
      pieceOf s w i := by
  have before : ((List.range i).flatMap (pieceOf s w)).length = offsetOf s w i :=
    length_pieces inv fun j lt => fits j (lt.trans index)
  have own : (pieceOf s w i).length = (s.descriptor i).width.toNat := by
    rw [encode_length (encode_piece h (fits i index h)), widthOf_of_wf (inv.descriptors i)]
  have header : (bitsOf 32 tag.toNat ++ bitsOf 32 (payloadOf s w).length).length = 64 := by
    rw [List.length_append, bitsOf_length, bitsOf_length]
  obtain ⟨rest, split⟩ := payloadOf_split (w := w) index
  rw [frameOf, slice_append_past header, split, slice_middle before own]

end Pieces

/-- The header of a frame holds the tag and the length. -/
theorem slice_frameOf_tag (tag : BitVec 32) (payload : BitString) :
    slice (frameOf tag payload) 0 32 = bitsOf 32 tag.toNat := by
  rw [frameOf, List.append_assoc, slice_append_left (bitsOf_length _ _)]

theorem slice_frameOf_length (tag : BitVec 32) (payload : BitString) :
    slice (frameOf tag payload) 32 32 = bitsOf 32 payload.length := by
  rw [frameOf, List.append_assoc, slice_middle (bitsOf_length _ _) (bitsOf_length _ _)]

/-! ### Encoding, loading and reading the header -/

/-- `t` stands at the payload of the frame that `s` encodes at version `w`, the schema, the configuration and
STATUS as in `s`. -/
structure HeaderRead (s : State) (w : BitVec 32) (t : State) : Prop where
  schFd : t.schFd = s.schFd
  schDef : t.schDef = s.schDef
  schNf : t.schNf = s.schNf
  fv : t.fv = s.fv
  i32Offset : t.i32Offset = s.i32Offset
  lenpol : t.lenpol = s.lenpol
  status : t.status = s.status
  rSrc : t.rSrc = frameOf s.schTag (payloadOf s w)
  rPos : t.rPos = 64
  fdTag : t.fdTag = s.schTag
  fdLen : t.fdLen.toNat = payloadLength s w
  fdHvalid : t.fdHvalid = true

section RoundTrip

variable {s t : State} {w w' : BitVec 32}

theorem withBS_readBS (s : State) (r : BsReg) (b : BitString) : (withBS s r b).readBS r = b :=
  writeBS_readBS_same s r b

/-- R_LOAD then FD_HDR, from a register that holds a frame of a length that fits 32 bits. -/
theorem exec_load_header {rd : BsReg} {tag : BitVec 32} {payload : BitString}
    (frame : s.readBS rd = frameOf tag payload) (fits : payload.length < 2 ^ 32) :
    ∃ s2 s3, exec (.rLoad rd) s = .next s2 ∧ exec .fdHdr s2 = .next s3 ∧
      s3 = { s with
        rSrc := frameOf tag payload
        rPos := 64
        fdTag := tag
        fdLen := BitVec.ofNat 32 payload.length
        fdPstart := 64
        fdHvalid := true
        res := BitVec.ofNat 32 payload.length ++ tag
        hostOut := s3.hostOut } := by
  have loaded := rBitsRSkipAndRLoadMoveTheCursor.2 s rd
  rw [frame] at loaded
  have room : 64 ≤ (frameOf tag payload).length - 0 := by rw [length_frameOf]; omega
  have header := execFdHdr_of_le
    (s := answered { s with rSrc := frameOf tag payload, rPos := 0, fdHvalid := false } []) room
  have tagDigits : BitVec.ofNat 32 (uval (slice (frameOf tag payload) 0 32)) = tag := by
    rw [slice_frameOf_tag, uval_bitsOf_of_lt tag.isLt, BitVec.ofNat_toNat, BitVec.setWidth_eq]
  have lengthDigits : uval (slice (frameOf tag payload) 32 32) = payload.length := by
    rw [slice_frameOf_length, uval_bitsOf_of_lt fits]
  refine ⟨_, _, loaded, header, ?_⟩
  simp only [answered, Nat.zero_add, tagDigits, lengthDigits]
  rfl

/-- FE_ENC puts the frame in `BS[RD]` and keeps everything the decoder reads. -/
theorem exec_feEnc_frame {rd : BsReg} {v : DataWord} (inv : s.Inv)
    (fits : ∀ i, i < s.schNf → Present s (low32 v) i → FieldFits s i) :
    ∃ s1, exec (.feEnc rd v) s = .next s1 ∧
      s1.readBS rd = frameOf s.schTag (payloadOf s (low32 v)) ∧
      s1 = { s with bs := s1.bs, res := s1.res, nanDraws := s1.nanDraws, hostOut := s1.hostOut } :=
  ⟨_, exec_feEnc_of_fits rd inv fits, withBS_readBS s rd _, rfl⟩

theorem exec_to_header {rd : BsReg} {v : DataWord} (inv : s.Inv)
    (fits : ∀ i, i < s.schNf → Present s (low32 v) i → FieldFits s i) :
    ∃ s1 s2 s3, exec (.feEnc rd v) s = .next s1 ∧ exec (.rLoad rd) s1 = .next s2 ∧
      exec .fdHdr s2 = .next s3 ∧ HeaderRead s (low32 v) s3 := by
  have length := length_payloadOf inv fits
  have small := payloadLength_lt inv (low32 v)
  obtain ⟨s1, encoded, held, kept⟩ := exec_feEnc_frame (rd := rd) inv fits
  obtain ⟨s2, s3, loaded, header, read⟩ := exec_load_header held (length ▸ small)
  have declared : (BitVec.ofNat 32 (payloadOf s (low32 v)).length).toNat = payloadLength s (low32 v) := by
    rw [BitVec.toNat_ofNat, length, Nat.mod_eq_of_lt small]
  refine ⟨s1, s2, s3, encoded, loaded, header, ?_⟩
  rw [read, kept]
  exact ⟨rfl, rfl, rfl, rfl, rfl, rfl, rfl, rfl, rfl, rfl, declared, rfl⟩

/-! ### Decoding the payload -/

theorem HeaderRead.descriptor_eq (h : HeaderRead s w t) (i : Nat) : t.descriptor i = s.descriptor i := by
  rw [State.descriptor, h.schFd, State.descriptor]

theorem HeaderRead.present_iff (h : HeaderRead s w t) (i : Nat) : Present t w' i ↔ Present s w' i := by
  rw [Present, Present, h.descriptor_eq]

/-- Offsets are about the schema alone. -/
theorem HeaderRead.offsetOf_eq (h : HeaderRead s w t) (i : Nat) : offsetOf t w' i = offsetOf s w' i := by
  induction i with
  | zero => rfl
  | succ i ih => rw [offsetOf, offsetOf, ih, h.descriptor_eq]

theorem HeaderRead.payloadLength_eq (h : HeaderRead s w t) : payloadLength t w' = payloadLength s w' := by
  rw [payloadLength, h.offsetOf_eq, h.schNf, payloadLength]

theorem HeaderRead.length_rSrc (h : HeaderRead s w t) (inv : s.Inv)
    (fits : ∀ i, i < s.schNf → Present s w i → FieldFits s i) :
    t.rSrc.length = 64 + payloadLength s w := by
  rw [h.rSrc, length_frameOf, length_payloadOf inv fits]

/-- A field whose digits stand at its offset comes back as it was encoded. -/
theorem HeaderRead.fieldResult_eq (h : HeaderRead s w t) (inv : s.Inv) {i : Nat}
    (fits : ∀ i, i < s.schNf → Present s w i → FieldFits s i) (notNaN : FieldNotNaN s i)
    (index : i < s.schNf) (encoded : Present s w i) (decoded : Present s w' i)
    (place : offsetOf s w' i = offsetOf s w i) :
    fieldResult t w' i = hostValue (s.descriptor i).kind (s.fieldValue i) := by
  have digits : slice t.rSrc (t.rPos + offsetOf t w' i) (t.descriptor i).width.toNat =
      pieceOf s w i := by
    rw [h.rSrc, h.rPos, h.offsetOf_eq, h.descriptor_eq, place]
    exact slice_frameOf_piece inv fits s.schTag index encoded
  have piece : (atField t w' i).decode (s.descriptor i).kind (pieceOf s w i) =
      hostValue (s.descriptor i).kind (s.fieldValue i) := by
    rw [State.decode, show (atField t w' i).i32Offset = s.i32Offset from h.i32Offset]
    exact decK_encK (encode_piece encoded (fits i index encoded)) notNaN
  rw [fieldResult_of_present ((h.present_iff i).2 decoded), digits, h.descriptor_eq, piece]

/-- FD_BODY at version `w'` on a frame of version `w` whose fields present at `w'` stand where `w'` looks for
them. -/
theorem exec_body_of_header {v' : DataWord} {n : Nat} (h : HeaderRead s w t) (inv : s.Inv)
    (fits : ∀ i, i < s.schNf → Present s w i → FieldFits s i ∧ FieldNotNaN s i)
    (agree : ∀ i, i < s.schNf → Present s (low32 v') i →
      Present s w i ∧ offsetOf s (low32 v') i = offsetOf s w i)
    (shorter : payloadLength s (low32 v') ≤ payloadLength s w)
    (admits : PolicyAdmits t (payloadLength s (low32 v')) n) :
    ∃ s4, exec (.fdBody v') t = .next s4 ∧ s4.rPos = 64 + n ∧ s4.rSrc = t.rSrc ∧
      s4.status = flagsAfter t (payloadLength s (low32 v')) ∧
      s4.fdConsumed = BitVec.ofNat 32 (payloadLength s (low32 v')) ∧
      ∀ i, i < s.schNf →
        (Present s (low32 v') i →
          s4.fieldValue i = hostValue (s.descriptor i).kind (s.fieldValue i)) ∧
        (¬Present s (low32 v') i → s4.fieldValue i = s.defaultValue i) := by
  have length := h.length_rSrc inv fun i index present => (fits i index present).1
  rw [← h.payloadLength_eq] at shorter admits ⊢
  have room : t.rPos + payloadLength t (low32 v') ≤ t.rSrc.length := by
    rw [length, h.rPos]
    omega
  refine ⟨_, exec_fdBody_of_admits h.fdHvalid room admits, congrArg (· + n) h.rPos, rfl, rfl, rfl,
    fun i index => ?_⟩
  have count : t.schNf ≤ t.fv.length := by rw [h.schNf, h.fv, inv.fvCount]; exact inv.nf
  have walked := fieldsWalked_getD t (low32 v') count i
  rw [if_pos (h.schNf ▸ index)] at walked
  refine ⟨fun present => walked.trans ?_, fun absent => walked.trans ?_⟩
  · obtain ⟨encoded, place⟩ := agree i index present
    exact h.fieldResult_eq inv (fun j index present => (fits j index present).1)
      (fits i index encoded).2 index encoded present place
  · rw [fieldResult_of_absent (mt (h.present_iff i).1 absent), State.defaultValue, h.schDef,
      State.defaultValue]

end RoundTrip

/-- Settles O54: at one version every field stands where it is looked for, and the walk takes the declared
length, which every policy admits. -/
theorem frameRoundTripReproducesTheFields : Obligations.FrameRoundTripReproducesTheFields := by
  intro s rd v inv fits
  have fitting := fun i index present => (fits i index present).1
  obtain ⟨s1, s2, s3, encoded, loaded, header, h⟩ := exec_to_header (rd := rd) inv fitting
  have admits : PolicyAdmits s3 (payloadLength s (low32 v)) (payloadLength s (low32 v)) := by
    have length := h.length_rSrc inv fitting
    unfold PolicyAdmits
    rw [h.fdLen, h.rPos, length]
    cases policy : s3.lenpol <;> simp
  obtain ⟨s4, body, rPos, rSrc, status, consumed, values⟩ :=
    exec_body_of_header h inv fits (fun i _ present => ⟨present, rfl⟩) le_rfl admits
  refine ⟨s1, s2, s3, s4, encoded, loaded, header, body, h.fdTag, h.fdLen, ?_, ?_, ?_, values⟩
  · rw [consumed, ← h.fdLen, BitVec.ofNat_toNat, BitVec.setWidth_eq]
  · rw [rPos, rSrc, h.length_rSrc inv fitting]
  · rw [status, flagsAfter_of_eq h.fdLen.symm, h.status]

/-! ### Decoding at a lower version -/

section LowerVersion

variable {s : State} {w w' : BitVec 32} {i : Nat}

theorem present_of_lower (le : w'.toNat ≤ w.toNat) (h : Present s w' i) : Present s w i :=
  Nat.le_trans h le

/-- At a lower version fewer fields are present. -/
theorem offsetOf_le_of_lower (le : w'.toNat ≤ w.toNat) (i : Nat) :
    offsetOf s w' i ≤ offsetOf s w i := by
  induction i with
  | zero => exact le_rfl
  | succ i ih =>
    by_cases h : Present s w' i
    · rw [offsetOf_succ_of_present h, offsetOf_succ_of_present (present_of_lower le h)]
      omega
    · rw [offsetOf_succ_of_absent h]
      exact ih.trans (offsetOf_mono s w (Nat.le_succ i))

/-- In a monotone schema the fields before a present one are present. -/
theorem present_of_monotone (monotone : Spec.Monotone s) (index : i < s.schNf) (h : Present s w i) {j : Nat}
    (le : j ≤ i) : Present s w j := by
  induction i with
  | zero => rwa [Nat.le_zero.1 le]
  | succ i ih =>
    rcases Nat.eq_or_lt_of_le le with rfl | lt
    · exact h
    · exact ih (by omega) ((monotone i index).trans h) (by omega)

/-- So a field present at the lower version has the same place in both. -/
theorem offsetOf_eq_of_lower (monotone : Spec.Monotone s) (le : w'.toNat ≤ w.toNat) (index : i < s.schNf)
    (h : Present s w' i) : offsetOf s w' i = offsetOf s w i := by
  induction i with
  | zero => rfl
  | succ i ih =>
    have before := present_of_monotone monotone index h (Nat.le_succ i)
    rw [offsetOf_succ_of_present before, offsetOf_succ_of_present (present_of_lower le before),
      ih (by omega) before]

end LowerVersion

/-- Settles O55: a monotone schema puts what the lower version decodes first. -/
theorem lowerVersionDecodeGivesThePrefix : Obligations.LowerVersionDecodeGivesThePrefix := by
  intro s rd v v' inv monotone notExact le fits
  have fitting := fun i index present => (fits i index present).1
  have shorter : payloadLength s (low32 v') ≤ payloadLength s (low32 v) := offsetOf_le_of_lower le _
  obtain ⟨s1, s2, s3, encoded, loaded, header, h⟩ := exec_to_header (rd := rd) inv fitting
  have length := h.length_rSrc inv fitting
  obtain ⟨n, admits, framed, permissive⟩ : ∃ n, PolicyAdmits s3 (payloadLength s (low32 v')) n ∧
      (s.lenpol = .framed → n = payloadLength s (low32 v)) ∧
      (s.lenpol = .permissive → n = payloadLength s (low32 v')) := by
    unfold PolicyAdmits
    rw [h.fdLen, h.rPos, length, h.lenpol]
    cases policy : s.lenpol
    case exact => exact absurd policy notExact
    case permissive => exact ⟨_, .inl ⟨rfl, rfl⟩, nofun, fun _ => rfl⟩
    case framed => exact ⟨_, .inr (.inr ⟨rfl, shorter, le_rfl, rfl⟩), fun _ => rfl, nofun⟩
  obtain ⟨s4, body, rPos, rSrc, status, -, values⟩ := exec_body_of_header h inv fits
    (fun i index present => ⟨present_of_lower le present, offsetOf_eq_of_lower monotone le index present⟩)
    shorter admits
  refine ⟨s1, s2, s3, s4, encoded, loaded, header, body, fun policy => ?_, fun policy => ?_, ?_, ?_, values⟩
  · rw [rPos, rSrc, length, framed policy]
  · rw [rPos, permissive policy]
  · rw [status, flagsAfter, h.status, h.fdLen]
  · rw [status, flagsAfter, h.status, h.fdLen, decide_eq_false (Nat.not_lt.2 shorter), Bool.or_false]

end Sys2Proof.Machine
end

section
/-!
PROOFS. Fields at or above SCH.NF take no part in any frame operation (10_state.md R30): the frame commands commute
with the replacement of such a field.
-/

namespace Sys2Proof.Machine

open Sys2Proof.Spec

/-- The replacement of field `j`, as an update of the state. -/
def replaceField (j : Nat) (f : Descriptor) (dflt value : DataWord) (s : State) : State :=
  withField s j f dflt value

section Replaced

variable {j : Nat} {f : Descriptor} {dflt value : DataWord} {s : State} {i : Nat} {v : BitVec 32}

/-! ### What the replacement leaves unchanged -/

theorem withField_schNf : (withField s j f dflt value).schNf = s.schNf := rfl
theorem withField_schTag : (withField s j f dflt value).schTag = s.schTag := rfl
theorem withField_params : (withField s j f dflt value).params = s.params := rfl
theorem withField_fdLen : (withField s j f dflt value).fdLen = s.fdLen := rfl
theorem withField_fdHvalid : (withField s j f dflt value).fdHvalid = s.fdHvalid := rfl

theorem replaceField_descriptor (h : i ≠ j) :
    (replaceField j f dflt value s).descriptor i = s.descriptor i := by
  simp [replaceField, withField, State.descriptor, List.getElem?_set_ne h.symm]

theorem replaceField_defaultValue (h : i ≠ j) :
    (replaceField j f dflt value s).defaultValue i = s.defaultValue i := by
  simp [replaceField, withField, State.defaultValue, List.getElem?_set_ne h.symm]

theorem replaceField_fieldValue (h : i ≠ j) :
    (replaceField j f dflt value s).fieldValue i = s.fieldValue i := by
  simp [replaceField, withField, State.fieldValue, List.getElem?_set_ne h.symm]

theorem replaceField_present (h : i ≠ j) :
    (replaceField j f dflt value s).present v i = s.present v i := by
  rw [State.present, replaceField_descriptor h, State.present]

theorem writeFieldValue_replaceField (h : i ≠ j) (x : DataWord) :
    (replaceField j f dflt value s).writeFieldValue i x =
      replaceField j f dflt value (s.writeFieldValue i x) := by
  simp only [replaceField, withField, State.writeFieldValue, List.set_comm value x h.symm]

/-! ### The operations of the frame commands -/

theorem readBits_replaceField (n : Nat) :
    (replaceField j f dflt value s).readBits n =
      (s.readBits n).map (Prod.map id (replaceField j f dflt value)) := by
  have remaining : (replaceField j f dflt value s).remaining = s.remaining := rfl
  unfold State.readBits
  rw [remaining]
  split <;> rfl

theorem encodeField_replaceField (h : i ≠ j) (b : BitString) :
    encodeField v i b (replaceField j f dflt value s) =
      (encodeField v i b s).map (Prod.map id (replaceField j f dflt value)) := by
  have encodes (k : Kind) (w : Nat) (x : DataWord) :
    (replaceField j f dflt value s).encode (some i) k w x = s.encode (some i) k w x := rfl
  unfold encodeField
  rw [replaceField_present h, replaceField_descriptor h, replaceField_fieldValue h, encodes]
  split
  · split <;> rfl
  · rfl

theorem encodeFields_replaceField {n : Nat} (h : i + n ≤ j) (b : BitString) :
    encodeFields v n i b (replaceField j f dflt value s) =
      (encodeFields v n i b s).map (Prod.map id (replaceField j f dflt value)) := by
  induction n generalizing i b s with
  | zero => rfl
  | succ n ih =>
    rw [encodeFields, encodeField_replaceField (by omega), encodeFields]
    cases encodeField v i b s with
    | error e => rfl
    | ok r => exact ih (by omega) r.1

theorem decodeField_replaceField (h : i ≠ j) (c : Nat) :
    decodeField v i c (replaceField j f dflt value s) =
      (decodeField v i c s).map (Prod.map id (replaceField j f dflt value)) := by
  unfold decodeField
  rw [replaceField_present h, replaceField_descriptor h, replaceField_defaultValue h, readBits_replaceField,
    writeFieldValue_replaceField h]
  split
  · cases s.readBits (s.descriptor i).width.toNat with
    | error e => rfl
    | ok r =>
      simp only [Except.map, Prod.map, writeFieldValue_replaceField h]
      rfl
  · rfl

theorem decodeFields_replaceField {n : Nat} (h : i + n ≤ j) (c : Nat) :
    decodeFields v n i c (replaceField j f dflt value s) =
      (decodeFields v n i c s).map (Prod.map id (replaceField j f dflt value)) := by
  induction n generalizing i c s with
  | zero => rfl
  | succ n ih =>
    rw [decodeFields, decodeField_replaceField (by omega), decodeFields]
    cases decodeField v i c s with
    | error e => rfl
    | ok r => exact ih (by omega) r.1

theorem lenPolicy_replaceField (c : Nat) :
    lenPolicy c (replaceField j f dflt value s) =
      (lenPolicy c s).map (replaceField j f dflt value) := by
  have policy : (replaceField j f dflt value s).lenpol = s.lenpol := rfl
  have declared : (replaceField j f dflt value s).fdLen = s.fdLen := rfl
  unfold lenPolicy
  rw [policy, declared, readBits_replaceField]
  split
  · split
    · rfl
    · split <;> rfl
  · split <;> rfl
  · split
    · rfl
    · split
      · cases s.readBits (s.fdLen.toNat - c) <;> rfl
      · rfl

/-! ### The commands -/

/-- A command whose working copy commutes with the replacement does so whether it completes or faults. -/
theorem finish_replaceField (cw : CommandWord) {r r' : Except Raise State}
    (h : r' = r.map (replaceField j f dflt value)) :
    ∃ t, finish cw s r = .next t ∧
      finish cw (withField s j f dflt value) r' = .next (withField t j f dflt value) := by
  subst h
  cases r <;> exact ⟨_, rfl, rfl⟩

end Replaced

/-- Settles O56: the loops visit the fields below SCH.NF alone. -/
theorem fieldsBeyondSchNfTakeNoPartInFrames : Obligations.FieldsBeyondSchNfTakeNoPartInFrames := by
  intro i s j f dflt value beyond frame
  have below : 0 + s.schNf ≤ j := by omega
  cases i
  case feEnc rd v =>
    have loop : encodeFields (lowWord v) s.schNf 0 [] (withField s j f dflt value) = _ :=
      encodeFields_replaceField below []
    refine finish_replaceField _ ?_
    rw [withField_schNf, loop]
    cases encodeFields (lowWord v) s.schNf 0 [] s with
    | error e => rfl
    | ok r =>
      rw [withField_schTag, withField_params]
      simp only [Except.map, Prod.map, id]
      split
      · rfl
      · split <;> rfl
  case fdHdr =>
    have read : (withField s j f dflt value).readBits 64 = _ := readBits_replaceField 64
    refine finish_replaceField _ ?_
    rw [read]
    cases s.readBits 64 <;> rfl
  case fdBody v =>
    have loop : decodeFields (lowWord v) s.schNf 0 0 (withField s j f dflt value) = _ :=
      decodeFields_replaceField below 0
    refine finish_replaceField _ ?_
    rw [withField_schNf, loop, withField_fdHvalid]
    split
    · rfl
    · cases decodeFields (lowWord v) s.schNf 0 0 s with
      | error e => rfl
      | ok r =>
        simp only [Except.map, Prod.map, id, lenPolicy_replaceField]
        cases lenPolicy r.1 r.2 <;> rfl
  case fdSkip =>
    have read : (withField s j f dflt value).readBits s.fdLen.toNat = _ := readBits_replaceField _
    refine finish_replaceField _ ?_
    rw [withField_fdHvalid, withField_fdLen, read]
    split
    · rfl
    · cases s.readBits s.fdLen.toNat <;> rfl
  all_goals simp [mnemonic] at frame

end Sys2Proof.Machine
end
